-- ==== Sys2Proof/Word.lean ====
section
/-!
DEFINITION. Word.lean: the bit-vector types of the machine (spec/10_state.md, R21 to R29).
Values in arithmetic are natural numbers (spec/00_scope.md, R9: unsigned, unbounded until a write).
-/

namespace Sys2Proof

/-- One byte of memory (R21). -/
abbrev Byte := BitVec 8

/-- An address: the width of `I` and `pc` in every mode (R27, R28; `ADDR_BITS` of R6). -/
abbrev Addr := BitVec 16

/-- One 16-bit instruction word (R72). -/
abbrev Opcode := BitVec 16

/-- One physical register or one stack slot: 64 bits in every mode (R29, R39; `SLOT_BITS` of R6). -/
abbrev Cell64 := BitVec 64

end Sys2Proof
end

