-- ==== Sys2Proof/Config.lean ====
section
/-!
DEFINITION. Config.lean: the modes and their profile (spec/00_scope.md, R5), the constants of R6, the
open parameters of R7 as one record of plain data, the decode table among them, and the free values of
the random source (R170). What the parameters say and their defaults are in Decode.lean and
Machine/Parameters.lean.
-/

namespace Sys2Proof

/-- The three variants of the architecture (spec/10_state.md, R37). -/
inductive Mode where
  | legacy8
  | extended16
  | extended64
deriving DecidableEq, Repr

/-! ## The mode profile (R5) -/

/-- `W`: the register width in bits. -/
def Mode.regBits : Mode → Nat
  | .legacy8 => 8
  | .extended16 => 16
  | .extended64 => 64

/-- `B`: bytes per register in memory transfers. -/
def Mode.regBytes : Mode → Nat
  | .legacy8 => 1
  | .extended16 => 2
  | .extended64 => 8

/-- `N`: the number of general registers. -/
def Mode.regCount : Mode → Nat
  | .legacy8 => 16
  | .extended16 => 16
  | .extended64 => 32

/-- `MAXV`: the largest register value, `2^W - 1`. -/
def Mode.maxValue (m : Mode) : Nat := 2 ^ m.regBits - 1

/-- `MEM`: the memory size in bytes. -/
def Mode.memSize : Mode → Nat
  | .legacy8 => 4096
  | .extended16 => 4096
  | .extended64 => 65536

/-- `DIGITS`: the BCD digit count. -/
def Mode.digits : Mode → Nat
  | .legacy8 => 3
  | .extended16 => 5
  | .extended64 => 20

/-- `AUTOINC`: whether a bulk transfer advances `I`. -/
def Mode.autoInc : Mode → Bool
  | .legacy8 => false
  | .extended16 => true
  | .extended64 => true

/-- `EXT`: whether the extended instruction families decode. -/
def Mode.ext : Mode → Bool
  | .legacy8 => false
  | .extended16 => true
  | .extended64 => true

/-- Whether the mode is `Extended64` (`x64` of spec/30_encoding.md, R81). -/
def Mode.x64 : Mode → Bool
  | .legacy8 => false
  | .extended16 => false
  | .extended64 => true

/-! ## Mode-independent constants (R6) -/

namespace Const

/-- `ORIGIN`. -/
abbrev origin : Nat := 0x200
/-- `FONT_BASE`. -/
abbrev fontBase : Nat := 0x000
/-- `GLYPH_BYTES`. -/
abbrev glyphBytes : Nat := 5
/-- Hexadecimal digits that have a glyph (R41). -/
abbrev glyphs : Nat := 16
/-- Bytes of the font table, `16 * GLYPH_BYTES` (R7). -/
abbrev fontBytes : Nat := 80
/-- `STACK_DEPTH`. -/
abbrev stackDepth : Nat := 16
/-- `FRAME_SLOTS`. -/
abbrev frameSlots : Nat := 4
/-- `NKEYS`. -/
abbrev nkeys : Nat := 16
/-- `CYCLE_FRAMES`. -/
abbrev cycleFrames : Nat := 10
/-- `OPCODE_BYTES`. -/
abbrev opcodeBytes : Nat := 2
/-- Physical memory bytes (R39). -/
abbrev physMem : Nat := 65536
/-- Physical registers (R39). -/
abbrev physRegs : Nat := 32
/-- `AUX`: the three auxiliary registers of call-with-parameters. -/
abbrev aux1 : Fin physRegs := 1
/-- `AUX`, second. -/
abbrev aux2 : Fin physRegs := 2
/-- `AUX`, third. -/
abbrev aux3 : Fin physRegs := 3
/-- `RETVAL`. -/
abbrev retval : Fin physRegs := 1
/-- `RESULT`. -/
abbrev result : Fin physRegs := 0

end Const

/-! ## The rows of the decode table -/

/-- The mode condition of a row (spec/30_encoding.md, R80, column "modes"; R76). -/
inductive Gate where
  /-- Every mode. -/
  | all
  /-- `EXT`: `Extended16` and `Extended64`. -/
  | ext
  /-- `X64`: `Extended64` only. -/
  | x64
deriving DecidableEq, Repr

/-- The operations of R80 without their operands, in the order of its rows. -/
inductive Op where
  | cls
  | ret
  | retv
  | callp
  | jp
  | call
  | seImm
  | sneImm
  | seReg
  | vadd
  | dot
  | bcopy
  | bsrch
  | rndb
  | ldImm
  | addImm
  | ldReg
  | orReg
  | andReg
  | xorReg
  | addReg
  | sub
  | shr
  | subn
  | mul
  | div
  | ror
  | rol
  | popcnt
  | shl
  | sneReg
  | drw16
  | drw32
  | hline
  | vline
  | ldI
  | jpV0
  | rnd
  | drw
  | skp
  | sknp
  | rndw
  | ldVxDt
  | ldVxK
  | ldDtVx
  | ldStVx
  | addI
  | ldF
  | ldB
  | ldMemVx
  | ldVxMem
deriving DecidableEq, Repr

/-- One row of the decode table (R80): an opcode with `opcode AND mask = value` selects the row when the
mode and the extra constraint `least <= nnn` allow it. -/
structure Row where
  /-- `mask`: the bits of the opcode that the row fixes. -/
  mask : Opcode
  /-- `match`: the value of the fixed bits. -/
  value : Opcode
  /-- The mode condition. -/
  gate : Gate
  /-- The least `nnn` of the row; 0 is no constraint. -/
  least : Nat
  /-- The operation the row selects. -/
  op : Op
deriving DecidableEq, Repr

/-! ## The open parameters (R7) -/

/-- `FONT_POLICY`: where `LD F` points for a value above 15 (spec/47_index_font_bcd_bulk.md, R162).
`table` lists any finite set of values with their addresses and one address for all other values; the
values a register can hold are finitely many, so every policy has such a table (log 5). -/
inductive FontPolicy where
  | fallbackF
  | table (entries : List (Nat × Addr)) (otherwise : Addr)
deriving DecidableEq, Repr

/-- The open parameters of R7, fixed for one machine. -/
structure Config where
  /-- `DW(Extended16)`. -/
  dw16 : Nat
  /-- `DH(Extended16)`. -/
  dh16 : Nat
  /-- `DW(Extended64)`. -/
  dw64 : Nat
  /-- `DH(Extended64)`. -/
  dh64 : Nat
  /-- `SEARCH_WINDOW_MAX`. -/
  searchWindowMax : Nat
  /-- `PALETTE_SIZE`. -/
  paletteSize : Nat
  /-- `FONT`, 80 bytes. -/
  font : List Byte
  /-- `FONT_POLICY`. -/
  fontPolicy : FontPolicy
  /-- The decode table of spec/30_encoding.md, R80 (R7, R79), as a list of rows (log 21). -/
  table : List Row
deriving DecidableEq, Repr

/-! ## Free values -/

/-- The answers of the random source (spec/48_random.md, R170): the `k`-th draw, a value about which
nothing is known. Each draw of a run reads it at a fresh index (`State.draws`) and reduces it to the
range the rule gives. That runs from one state agree is the model's choice (log 6). -/
opaque Config.randomSource : Nat → Cell64

end Sys2Proof
end

