-- ==== Sys2Proof/Syntax.lean ====
section
/-!
DEFINITION. Syntax.lean: the instructions, one constructor for each row of spec/opcode_table.json
(spec/30_encoding.md, R80), in the table's order, with the fields of R72 as operands.
-/

namespace Sys2Proof

/-- A register field `x` or `y`: 4 bits, naming registers 0 to 15 only (spec/10_state.md, R26). -/
abbrev RegField := BitVec 4

/-- The 51 instructions of R80. The field `y` of `SHR` and `SHL` is ignored by the hardware and is no
operand (R81). -/
inductive Instr where
  | cls
  | ret
  | retv
  | callp (nnn : BitVec 12)
  | jp (nnn : BitVec 12)
  | call (nnn : BitVec 12)
  | seImm (x : RegField) (kk : BitVec 8)
  | sneImm (x : RegField) (kk : BitVec 8)
  | seReg (x y : RegField)
  | vadd (x y : RegField)
  | dot (x y : RegField)
  | bcopy (x y : RegField)
  | bsrch (x y : RegField)
  | rndb (x y : RegField)
  | ldImm (x : RegField) (kk : BitVec 8)
  | addImm (x : RegField) (kk : BitVec 8)
  | ldReg (x y : RegField)
  | orReg (x y : RegField)
  | andReg (x y : RegField)
  | xorReg (x y : RegField)
  | addReg (x y : RegField)
  | sub (x y : RegField)
  | shr (x : RegField)
  | subn (x y : RegField)
  | mul (x y : RegField)
  | div (x y : RegField)
  | ror (x y : RegField)
  | rol (x y : RegField)
  | popcnt (x y : RegField)
  | shl (x : RegField)
  | sneReg (x y : RegField)
  | drw16 (x y : RegField)
  | drw32 (x y : RegField)
  | hline (x y : RegField)
  | vline (x y : RegField)
  | ldI (nnn : BitVec 12)
  | jpV0 (nnn : BitVec 12)
  | rnd (x : RegField) (kk : BitVec 8)
  | drw (x y : RegField) (n : BitVec 4)
  | skp (x : RegField)
  | sknp (x : RegField)
  | rndw (x : RegField)
  | ldVxDt (x : RegField)
  | ldVxK (x : RegField)
  | ldDtVx (x : RegField)
  | ldStVx (x : RegField)
  | addI (x : RegField)
  | ldF (x : RegField)
  | ldB (x : RegField)
  | ldMemVx (x : RegField)
  | ldVxMem (x : RegField)
deriving DecidableEq, Repr

end Sys2Proof
end

