-- ==== Sys2Proof/Decode.lean ====
section
/-!
DEFINITION. Decode.lean: the decoder over a decode table (spec/30_encoding.md, R72, R80), total on every
word and on any bytes; the table of R80 and the decode function of R81; the encoder; the assembler notation
(R85). The numbering is data of the configuration, and no meaning depends on it (R7, R79).
-/

namespace Sys2Proof

/-! ## The fields of R72 -/

/-- `fam = op[15:12]`. -/
def Opcode.fam (op : Opcode) : BitVec 4 := op.extractLsb' 12 4
/-- `x = op[11:8]`. -/
def Opcode.x (op : Opcode) : BitVec 4 := op.extractLsb' 8 4
/-- `y = op[7:4]`. -/
def Opcode.y (op : Opcode) : BitVec 4 := op.extractLsb' 4 4
/-- `n = op[3:0]`. -/
def Opcode.n (op : Opcode) : BitVec 4 := op.extractLsb' 0 4
/-- `kk = op[7:0]`. -/
def Opcode.kk (op : Opcode) : BitVec 8 := op.extractLsb' 0 8
/-- `nnn = op[11:0]`. -/
def Opcode.nnn (op : Opcode) : BitVec 12 := op.extractLsb' 0 12

/-! ## The decoder over a table -/

/-- Whether a mode meets a gate (R76). -/
def Gate.admits : Gate → Mode → Bool
  | .all, _ => true
  | .ext, m => m.ext
  | .x64, m => m.x64

/-- An opcode selects a row: its fixed bits match, and the mode condition and the extra constraint hold
(R80). -/
def Row.selects (r : Row) (m : Mode) (w : Opcode) : Bool :=
  decide (w &&& r.mask = r.value) && r.gate.admits m && decide (r.least ≤ w.nnn.toNat)

/-- An operation with the operands that stand in an opcode (R72, R80, column "format"). -/
def Op.instr : Op → Opcode → Instr
  | .cls, _ => .cls
  | .ret, _ => .ret
  | .retv, _ => .retv
  | .callp, w => .callp w.nnn
  | .jp, w => .jp w.nnn
  | .call, w => .call w.nnn
  | .seImm, w => .seImm w.x w.kk
  | .sneImm, w => .sneImm w.x w.kk
  | .seReg, w => .seReg w.x w.y
  | .vadd, w => .vadd w.x w.y
  | .dot, w => .dot w.x w.y
  | .bcopy, w => .bcopy w.x w.y
  | .bsrch, w => .bsrch w.x w.y
  | .rndb, w => .rndb w.x w.y
  | .ldImm, w => .ldImm w.x w.kk
  | .addImm, w => .addImm w.x w.kk
  | .ldReg, w => .ldReg w.x w.y
  | .orReg, w => .orReg w.x w.y
  | .andReg, w => .andReg w.x w.y
  | .xorReg, w => .xorReg w.x w.y
  | .addReg, w => .addReg w.x w.y
  | .sub, w => .sub w.x w.y
  | .shr, w => .shr w.x
  | .subn, w => .subn w.x w.y
  | .mul, w => .mul w.x w.y
  | .div, w => .div w.x w.y
  | .ror, w => .ror w.x w.y
  | .rol, w => .rol w.x w.y
  | .popcnt, w => .popcnt w.x w.y
  | .shl, w => .shl w.x
  | .sneReg, w => .sneReg w.x w.y
  | .drw16, w => .drw16 w.x w.y
  | .drw32, w => .drw32 w.x w.y
  | .hline, w => .hline w.x w.y
  | .vline, w => .vline w.x w.y
  | .ldI, w => .ldI w.nnn
  | .jpV0, w => .jpV0 w.nnn
  | .rnd, w => .rnd w.x w.kk
  | .drw, w => .drw w.x w.y w.n
  | .skp, w => .skp w.x
  | .sknp, w => .sknp w.x
  | .rndw, w => .rndw w.x
  | .ldVxDt, w => .ldVxDt w.x
  | .ldVxK, w => .ldVxK w.x
  | .ldDtVx, w => .ldDtVx w.x
  | .ldStVx, w => .ldStVx w.x
  | .addI, w => .addI w.x
  | .ldF, w => .ldF w.x
  | .ldB, w => .ldB w.x
  | .ldMemVx, w => .ldMemVx w.x
  | .ldVxMem, w => .ldVxMem w.x

/-- The decoder: the operation of the row that the opcode selects, with the opcode's operands; `none` is
`Unknown`, so every opcode has an answer (R75, R80). -/
def decodeWord (t : List Row) (m : Mode) (w : Opcode) : Option Instr :=
  (t.find? fun r => r.selects m w).map fun r => r.op.instr w

/-- The 51 rows of R80, those of families 0, 1 to 4, 5, 6 and 7, 8, 9, A to D, E and F: the default of the
decode table (spec/92_eei_decisions.md section 2; log 17 for the origin of the numbering). -/
def tableR80 : List Row :=
  [⟨0xFFFF#16, 0x00E0#16, .all, 0, .cls⟩,
   ⟨0xFFFF#16, 0x00EE#16, .all, 0, .ret⟩,
   ⟨0xFFFF#16, 0x00EF#16, .ext, 0, .retv⟩,
   ⟨0xF000#16, 0x0000#16, .ext, 0x100, .callp⟩] ++
  [⟨0xF000#16, 0x1000#16, .all, 0, .jp⟩,
   ⟨0xF000#16, 0x2000#16, .all, 0, .call⟩,
   ⟨0xF000#16, 0x3000#16, .all, 0, .seImm⟩,
   ⟨0xF000#16, 0x4000#16, .all, 0, .sneImm⟩] ++
  [⟨0xF00F#16, 0x5000#16, .all, 0, .seReg⟩,
   ⟨0xF00F#16, 0x5001#16, .ext, 0, .vadd⟩,
   ⟨0xF00F#16, 0x5002#16, .ext, 0, .dot⟩,
   ⟨0xF00F#16, 0x5003#16, .ext, 0, .bcopy⟩,
   ⟨0xF00F#16, 0x5004#16, .ext, 0, .bsrch⟩,
   ⟨0xF00F#16, 0x5005#16, .ext, 0, .rndb⟩] ++
  [⟨0xF000#16, 0x6000#16, .all, 0, .ldImm⟩,
   ⟨0xF000#16, 0x7000#16, .all, 0, .addImm⟩] ++
  [⟨0xF00F#16, 0x8000#16, .all, 0, .ldReg⟩,
   ⟨0xF00F#16, 0x8001#16, .all, 0, .orReg⟩,
   ⟨0xF00F#16, 0x8002#16, .all, 0, .andReg⟩,
   ⟨0xF00F#16, 0x8003#16, .all, 0, .xorReg⟩,
   ⟨0xF00F#16, 0x8004#16, .all, 0, .addReg⟩,
   ⟨0xF00F#16, 0x8005#16, .all, 0, .sub⟩,
   ⟨0xF00F#16, 0x8006#16, .all, 0, .shr⟩,
   ⟨0xF00F#16, 0x8007#16, .all, 0, .subn⟩,
   ⟨0xF00F#16, 0x8008#16, .ext, 0, .mul⟩,
   ⟨0xF00F#16, 0x8009#16, .ext, 0, .div⟩,
   ⟨0xF00F#16, 0x800A#16, .ext, 0, .ror⟩,
   ⟨0xF00F#16, 0x800B#16, .ext, 0, .rol⟩,
   ⟨0xF00F#16, 0x800C#16, .ext, 0, .popcnt⟩,
   ⟨0xF00F#16, 0x800E#16, .all, 0, .shl⟩] ++
  [⟨0xF00F#16, 0x9000#16, .all, 0, .sneReg⟩,
   ⟨0xF00F#16, 0x9001#16, .ext, 0, .drw16⟩,
   ⟨0xF00F#16, 0x9002#16, .x64, 0, .drw32⟩,
   ⟨0xF00F#16, 0x9003#16, .ext, 0, .hline⟩,
   ⟨0xF00F#16, 0x9004#16, .ext, 0, .vline⟩] ++
  [⟨0xF000#16, 0xA000#16, .all, 0, .ldI⟩,
   ⟨0xF000#16, 0xB000#16, .all, 0, .jpV0⟩,
   ⟨0xF000#16, 0xC000#16, .all, 0, .rnd⟩,
   ⟨0xF000#16, 0xD000#16, .all, 0, .drw⟩] ++
  [⟨0xF0FF#16, 0xE09E#16, .all, 0, .skp⟩,
   ⟨0xF0FF#16, 0xE0A1#16, .all, 0, .sknp⟩] ++
  [⟨0xF0FF#16, 0xF001#16, .ext, 0, .rndw⟩,
   ⟨0xF0FF#16, 0xF007#16, .all, 0, .ldVxDt⟩,
   ⟨0xF0FF#16, 0xF00A#16, .all, 0, .ldVxK⟩,
   ⟨0xF0FF#16, 0xF015#16, .all, 0, .ldDtVx⟩,
   ⟨0xF0FF#16, 0xF018#16, .all, 0, .ldStVx⟩,
   ⟨0xF0FF#16, 0xF01E#16, .all, 0, .addI⟩,
   ⟨0xF0FF#16, 0xF029#16, .all, 0, .ldF⟩,
   ⟨0xF0FF#16, 0xF033#16, .all, 0, .ldB⟩,
   ⟨0xF0FF#16, 0xF055#16, .all, 0, .ldMemVx⟩,
   ⟨0xF0FF#16, 0xF065#16, .all, 0, .ldVxMem⟩]

/-! ## The decode function of R81 -/

/-- The instruction when the mode has it, else `Unknown`. -/
def whenMode (available : Bool) (i : Instr) : Option Instr := if available then some i else none

/-- Family 0: dispatch on the whole low 12 bits (R75). -/
def decodeFam0 (m : Mode) (op : Opcode) : Option Instr :=
  if op = 0x00E0#16 then some .cls
  else if op = 0x00EE#16 then some .ret
  else if op = 0x00EF#16 then whenMode m.ext .retv
  else if op.x = 0#4 then none
  else whenMode m.ext (.callp op.nnn)

/-- Family 5: dispatch on `n`. -/
def decodeFam5 (m : Mode) (op : Opcode) : Option Instr :=
  match op.n with
  | 0#4 => some (.seReg op.x op.y)
  | 1#4 => whenMode m.ext (.vadd op.x op.y)
  | 2#4 => whenMode m.ext (.dot op.x op.y)
  | 3#4 => whenMode m.ext (.bcopy op.x op.y)
  | 4#4 => whenMode m.ext (.bsrch op.x op.y)
  | 5#4 => whenMode m.ext (.rndb op.x op.y)
  | _ => none

/-- Family 8: dispatch on `n`. -/
def decodeFam8 (m : Mode) (op : Opcode) : Option Instr :=
  match op.n with
  | 0#4 => some (.ldReg op.x op.y)
  | 1#4 => some (.orReg op.x op.y)
  | 2#4 => some (.andReg op.x op.y)
  | 3#4 => some (.xorReg op.x op.y)
  | 4#4 => some (.addReg op.x op.y)
  | 5#4 => some (.sub op.x op.y)
  | 6#4 => some (.shr op.x)
  | 7#4 => some (.subn op.x op.y)
  | 8#4 => whenMode m.ext (.mul op.x op.y)
  | 9#4 => whenMode m.ext (.div op.x op.y)
  | 10#4 => whenMode m.ext (.ror op.x op.y)
  | 11#4 => whenMode m.ext (.rol op.x op.y)
  | 12#4 => whenMode m.ext (.popcnt op.x op.y)
  | 14#4 => some (.shl op.x)
  | _ => none

/-- Family 9: dispatch on `n`. -/
def decodeFam9 (m : Mode) (op : Opcode) : Option Instr :=
  match op.n with
  | 0#4 => some (.sneReg op.x op.y)
  | 1#4 => whenMode m.ext (.drw16 op.x op.y)
  | 2#4 => whenMode m.x64 (.drw32 op.x op.y)
  | 3#4 => whenMode m.ext (.hline op.x op.y)
  | 4#4 => whenMode m.ext (.vline op.x op.y)
  | _ => none

/-- Family E: dispatch on `kk`. -/
def decodeFamE (op : Opcode) : Option Instr :=
  match op.kk with
  | 0x9E#8 => some (.skp op.x)
  | 0xA1#8 => some (.sknp op.x)
  | _ => none

/-- Family F: dispatch on `kk`. -/
def decodeFamF (m : Mode) (op : Opcode) : Option Instr :=
  match op.kk with
  | 0x01#8 => whenMode m.ext (.rndw op.x)
  | 0x07#8 => some (.ldVxDt op.x)
  | 0x0A#8 => some (.ldVxK op.x)
  | 0x15#8 => some (.ldDtVx op.x)
  | 0x18#8 => some (.ldStVx op.x)
  | 0x1E#8 => some (.addI op.x)
  | 0x29#8 => some (.ldF op.x)
  | 0x33#8 => some (.ldB op.x)
  | 0x55#8 => some (.ldMemVx op.x)
  | 0x65#8 => some (.ldVxMem op.x)
  | _ => none

/-- The decode function (R81); `none` is `Unknown`. It is the decoder over `tableR80`, said by cases. -/
def decodeCases (m : Mode) (op : Opcode) : Option Instr :=
  match op.fam with
  | 0x0#4 => decodeFam0 m op
  | 0x1#4 => some (.jp op.nnn)
  | 0x2#4 => some (.call op.nnn)
  | 0x3#4 => some (.seImm op.x op.kk)
  | 0x4#4 => some (.sneImm op.x op.kk)
  | 0x5#4 => decodeFam5 m op
  | 0x6#4 => some (.ldImm op.x op.kk)
  | 0x7#4 => some (.addImm op.x op.kk)
  | 0x8#4 => decodeFam8 m op
  | 0x9#4 => decodeFam9 m op
  | 0xA#4 => some (.ldI op.nnn)
  | 0xB#4 => some (.jpV0 op.nnn)
  | 0xC#4 => some (.rnd op.x op.kk)
  | 0xD#4 => some (.drw op.x op.y op.n)
  | 0xE#4 => decodeFamE op
  | _ => decodeFamF m op

/-! ## Bytes -/

/-- Why bytes are rejected. -/
inductive Reject where
  /-- Fewer than two bytes: no whole instruction word stands there. -/
  | truncated
  /-- The word is `Unknown` in the mode (R82). -/
  | unknownOpcode (op : Opcode)
deriving DecidableEq, Repr

/-- The opcode of two consecutive bytes, the first the high one (spec/20_memory.md, R52). -/
def wordOfBytes (b0 b1 : Byte) : Opcode := b0 ++ b1

/-- The decoder on any bytes: an instruction and the rest of the bytes, or a named rejection. -/
def decode (t : List Row) (m : Mode) : List Byte → Except Reject (Instr × List Byte)
  | b0 :: b1 :: rest =>
    match decodeWord t m (wordOfBytes b0 b1) with
    | some i => .ok (i, rest)
    | none => .error (.unknownOpcode (wordOfBytes b0 b1))
  | _ => .error .truncated

/-! ## The encoder -/

/-- Format A: a family and an address (R73). -/
def wordA (fam : BitVec 4) (nnn : BitVec 12) : Opcode := fam ++ nnn
/-- Formats RI and R: a family, a register and a byte. -/
def wordRI (fam : BitVec 4) (x : RegField) (kk : BitVec 8) : Opcode := fam ++ x ++ kk
/-- Formats RR and RRN: a family, two registers and a nibble. -/
def wordRR (fam : BitVec 4) (x y : RegField) (n : BitVec 4) : Opcode := fam ++ x ++ y ++ n

/-- The operation of an instruction. -/
def Instr.op : Instr → Op
  | .cls => .cls
  | .ret => .ret
  | .retv => .retv
  | .callp _ => .callp
  | .jp _ => .jp
  | .call _ => .call
  | .seImm _ _ => .seImm
  | .sneImm _ _ => .sneImm
  | .seReg _ _ => .seReg
  | .vadd _ _ => .vadd
  | .dot _ _ => .dot
  | .bcopy _ _ => .bcopy
  | .bsrch _ _ => .bsrch
  | .rndb _ _ => .rndb
  | .ldImm _ _ => .ldImm
  | .addImm _ _ => .addImm
  | .ldReg _ _ => .ldReg
  | .orReg _ _ => .orReg
  | .andReg _ _ => .andReg
  | .xorReg _ _ => .xorReg
  | .addReg _ _ => .addReg
  | .sub _ _ => .sub
  | .shr _ => .shr
  | .subn _ _ => .subn
  | .mul _ _ => .mul
  | .div _ _ => .div
  | .ror _ _ => .ror
  | .rol _ _ => .rol
  | .popcnt _ _ => .popcnt
  | .shl _ => .shl
  | .sneReg _ _ => .sneReg
  | .drw16 _ _ => .drw16
  | .drw32 _ _ => .drw32
  | .hline _ _ => .hline
  | .vline _ _ => .vline
  | .ldI _ => .ldI
  | .jpV0 _ => .jpV0
  | .rnd _ _ => .rnd
  | .drw _ _ _ => .drw
  | .skp _ => .skp
  | .sknp _ => .sknp
  | .rndw _ => .rndw
  | .ldVxDt _ => .ldVxDt
  | .ldVxK _ => .ldVxK
  | .ldDtVx _ => .ldDtVx
  | .ldStVx _ => .ldStVx
  | .addI _ => .addI
  | .ldF _ => .ldF
  | .ldB _ => .ldB
  | .ldMemVx _ => .ldMemVx
  | .ldVxMem _ => .ldVxMem

/-- The operands of an instruction at their places in the opcode (R72), every other bit 0. -/
def Instr.operands : Instr → Opcode
  | .cls => 0#16
  | .ret => 0#16
  | .retv => 0#16
  | .callp nnn => wordA 0#4 nnn
  | .jp nnn => wordA 0#4 nnn
  | .call nnn => wordA 0#4 nnn
  | .seImm x kk => wordRI 0#4 x kk
  | .sneImm x kk => wordRI 0#4 x kk
  | .seReg x y => wordRR 0#4 x y 0#4
  | .vadd x y => wordRR 0#4 x y 0#4
  | .dot x y => wordRR 0#4 x y 0#4
  | .bcopy x y => wordRR 0#4 x y 0#4
  | .bsrch x y => wordRR 0#4 x y 0#4
  | .rndb x y => wordRR 0#4 x y 0#4
  | .ldImm x kk => wordRI 0#4 x kk
  | .addImm x kk => wordRI 0#4 x kk
  | .ldReg x y => wordRR 0#4 x y 0#4
  | .orReg x y => wordRR 0#4 x y 0#4
  | .andReg x y => wordRR 0#4 x y 0#4
  | .xorReg x y => wordRR 0#4 x y 0#4
  | .addReg x y => wordRR 0#4 x y 0#4
  | .sub x y => wordRR 0#4 x y 0#4
  | .shr x => wordRI 0#4 x 0#8
  | .subn x y => wordRR 0#4 x y 0#4
  | .mul x y => wordRR 0#4 x y 0#4
  | .div x y => wordRR 0#4 x y 0#4
  | .ror x y => wordRR 0#4 x y 0#4
  | .rol x y => wordRR 0#4 x y 0#4
  | .popcnt x y => wordRR 0#4 x y 0#4
  | .shl x => wordRI 0#4 x 0#8
  | .sneReg x y => wordRR 0#4 x y 0#4
  | .drw16 x y => wordRR 0#4 x y 0#4
  | .drw32 x y => wordRR 0#4 x y 0#4
  | .hline x y => wordRR 0#4 x y 0#4
  | .vline x y => wordRR 0#4 x y 0#4
  | .ldI nnn => wordA 0#4 nnn
  | .jpV0 nnn => wordA 0#4 nnn
  | .rnd x kk => wordRI 0#4 x kk
  | .drw x y n => wordRR 0#4 x y n
  | .skp x => wordRI 0#4 x 0#8
  | .sknp x => wordRI 0#4 x 0#8
  | .rndw x => wordRI 0#4 x 0#8
  | .ldVxDt x => wordRI 0#4 x 0#8
  | .ldVxK x => wordRI 0#4 x 0#8
  | .ldDtVx x => wordRI 0#4 x 0#8
  | .ldStVx x => wordRI 0#4 x 0#8
  | .addI x => wordRI 0#4 x 0#8
  | .ldF x => wordRI 0#4 x 0#8
  | .ldB x => wordRI 0#4 x 0#8
  | .ldMemVx x => wordRI 0#4 x 0#8
  | .ldVxMem x => wordRI 0#4 x 0#8

/-- The word of an instruction in a row: the fixed bits of the row and the operands; a bit that is neither,
as in the unused field `y` of `SHR` and `SHL`, is 0 (log 12). -/
def Row.word (r : Row) (i : Instr) : Opcode := r.value ||| i.operands

/-- A row spells an instruction in a mode: the row is that operation's, the mode has it, and the extra
constraint holds of its word (R80). -/
def Row.spells (r : Row) (m : Mode) (i : Instr) : Bool :=
  decide (r.op = i.op) && r.gate.admits m && decide (r.least ≤ (r.word i).nnn.toNat)

/-- The word of an instruction in a mode, in the first row of the table that spells it; `none` when no row
does. -/
def encode (t : List Row) (m : Mode) (i : Instr) : Option Opcode :=
  (t.find? fun r => r.spells m i).map fun r => r.word i

/-- The high byte of a word, stored at the lower address (spec/20_memory.md, R52). -/
def highByte (op : Opcode) : Byte := op.extractLsb' 8 8
/-- The low byte of a word. -/
def lowByte (op : Opcode) : Byte := op.extractLsb' 0 8

/-- The two bytes of a word in memory order. -/
def wordBytes (op : Opcode) : List Byte := [highByte op, lowByte op]

/-! ## The constraints on a table -/

/-- The bits of the opcode that hold operands of an operation (R73). -/
def Op.operandBits (o : Op) : Opcode := (o.instr 0xFFFF#16).operands

/-- A row that can be read and written back: no value bit outside the mask, no fixed bit on an operand, and
an extra constraint only where `nnn` is an operand or made of operands (R73, R80). -/
def Row.wf (r : Row) : Bool :=
  decide (r.value &&& ~~~r.mask = 0#16) && decide (r.mask &&& r.op.operandBits = 0#16) &&
  (decide (r.least = 0) || decide (r.op.operandBits = 0x0FFF#16))

/-- A row accepts an opcode, mode apart. -/
def Row.accepts (r : Row) (w : Opcode) : Bool :=
  decide (w &&& r.mask = r.value) && decide (r.least ≤ w.nnn.toNat)

/-- Some opcode selects both rows in `Extended64`, which meets every gate: the one that has the fixed bits
of both and 1 in every other place does, as it has the largest `nnn` of all that match both. -/
def Row.overlaps (r q : Row) : Bool :=
  r.accepts (r.value ||| q.value ||| ~~~(r.mask ||| q.mask)) &&
  q.accepts (r.value ||| q.value ||| ~~~(r.mask ||| q.mask))

/-- The constraint on a decode table: its rows can be read and written back, and no two overlap (R80;
spec/92_eei_decisions.md section 2, "rows disjoint"; log 21). -/
def tableOk (t : List Row) : Bool :=
  t.all Row.wf && decide (t.Pairwise fun r q => r.overlaps q = false)

/-! ## The host's question about a table word -/

/-- The word of a table row: its low `nbits` bits of the number, every bit above them 0. -/
def tableWord (nbits w : Nat) : Opcode := BitVec.ofNat 16 (w % 2 ^ nbits)

/-- The instruction the decoder reads from a word of the opcode table, in the mode in which every row of
`tableR80` decodes, `Extended64` (R76; log 12). A row is one 16-bit word, so a longer one is refused. -/
def decodeTableWord (nbits w : Nat) : Option Instr :=
  if nbits ≤ 16 then
    match decode tableR80 .extended64 (wordBytes (tableWord nbits w)) with
    | .ok (i, _) => some i
    | .error _ => none
  else none

/-! ## The assembler notation (R85) -/

/-- One hexadecimal digit. -/
def hexDigit (d : Nat) : String :=
  ["0", "1", "2", "3", "4", "5", "6", "7", "8", "9", "A", "B", "C", "D", "E", "F"].getD (d % 16) "?"

/-- A register name, `V0` to `VF`. -/
def regName (x : RegField) : String := "V" ++ hexDigit x.toNat
/-- A byte literal, `0x` and two digits. -/
def hexByte (kk : BitVec 8) : String := "0x" ++ hexDigit (kk.toNat / 16) ++ hexDigit kk.toNat
/-- An address literal, `0x` and three digits. -/
def hexAddr (nnn : BitVec 12) : String :=
  "0x" ++ hexDigit (nnn.toNat / 256) ++ hexDigit (nnn.toNat / 16) ++ hexDigit nnn.toNat

/-- Two register operands. -/
def regPair (x y : RegField) : String := regName x ++ ", " ++ regName y

/-- The notation of an instruction (R80, column "syntax"; R85). -/
def Instr.assembly : Instr → String
  | .cls => "CLS"
  | .ret => "RET"
  | .retv => "RETV"
  | .callp nnn => "CALLP " ++ hexAddr nnn
  | .jp nnn => "JP " ++ hexAddr nnn
  | .call nnn => "CALL " ++ hexAddr nnn
  | .seImm x kk => "SE " ++ regName x ++ ", " ++ hexByte kk
  | .sneImm x kk => "SNE " ++ regName x ++ ", " ++ hexByte kk
  | .seReg x y => "SE " ++ regPair x y
  | .vadd x y => "VADD " ++ regPair x y
  | .dot x y => "DOT " ++ regPair x y
  | .bcopy x y => "BCOPY " ++ regPair x y
  | .bsrch x y => "BSRCH " ++ regPair x y
  | .rndb x y => "RNDB " ++ regPair x y
  | .ldImm x kk => "LD " ++ regName x ++ ", " ++ hexByte kk
  | .addImm x kk => "ADD " ++ regName x ++ ", " ++ hexByte kk
  | .ldReg x y => "LD " ++ regPair x y
  | .orReg x y => "OR " ++ regPair x y
  | .andReg x y => "AND " ++ regPair x y
  | .xorReg x y => "XOR " ++ regPair x y
  | .addReg x y => "ADD " ++ regPair x y
  | .sub x y => "SUB " ++ regPair x y
  | .shr x => "SHR " ++ regName x
  | .subn x y => "SUBN " ++ regPair x y
  | .mul x y => "MUL " ++ regPair x y
  | .div x y => "DIV " ++ regPair x y
  | .ror x y => "ROR " ++ regPair x y
  | .rol x y => "ROL " ++ regPair x y
  | .popcnt x y => "POPCNT " ++ regPair x y
  | .shl x => "SHL " ++ regName x
  | .sneReg x y => "SNE " ++ regPair x y
  | .drw16 x y => "DRW16 " ++ regPair x y
  | .drw32 x y => "DRW32 " ++ regPair x y
  | .hline x y => "HLINE " ++ regPair x y
  | .vline x y => "VLINE " ++ regPair x y
  | .ldI nnn => "LD I, " ++ hexAddr nnn
  | .jpV0 nnn => "JP V0, " ++ hexAddr nnn
  | .rnd x kk => "RND " ++ regName x ++ ", " ++ hexByte kk
  | .drw x y n => "DRW " ++ regPair x y ++ ", 0x" ++ hexDigit n.toNat
  | .skp x => "SKP " ++ regName x
  | .sknp x => "SKNP " ++ regName x
  | .rndw x => "RNDW " ++ regName x
  | .ldVxDt x => "LD " ++ regName x ++ ", DT"
  | .ldVxK x => "LD " ++ regName x ++ ", K"
  | .ldDtVx x => "LD DT, " ++ regName x
  | .ldStVx x => "LD ST, " ++ regName x
  | .addI x => "ADD I, " ++ regName x
  | .ldF x => "LD F, " ++ regName x
  | .ldB x => "LD B, " ++ regName x
  | .ldMemVx x => "LD [I], " ++ regName x
  | .ldVxMem x => "LD " ++ regName x ++ ", [I]"

end Sys2Proof
end

