-- ==== Sys2Proof/WellFormed.lean ====
section
/-!
DEFINITION. WellFormed.lean: which terms of `Instr` a decode table has an encoding for, and in which mode.
-/

namespace Sys2Proof

/-- A well-formed instruction of a mode: some row of the decode table has its operation, the mode meets the
row's condition (spec/30_encoding.md, R76), and the operands meet the row's extra constraint, in R80 the
`nnn >= 0x100` of `CALLP` (row 4; spec/49_call_with_parameters.md, R175). -/
def Instr.wellFormed (t : List Row) (m : Mode) (i : Instr) : Bool := t.any fun r => r.spells m i

end Sys2Proof
end

