-- ==== Sys2Proof/Machine/Parameters.lean ====
section
/-!
DEFINITION. Machine/Parameters.lean: what the open parameters of spec/00_scope.md, R7, say, the constraints
they meet, and their defaults.
-/

namespace Sys2Proof

/-- The first address a table gives for a value. -/
def FontPolicy.find (v : Nat) (otherwise : Addr) : List (Nat × Addr) → Addr
  | [] => otherwise
  | (k, a) :: rest => if k = v then a else FontPolicy.find v otherwise rest

/-- The address a policy gives for a value above 15; `FallbackF` is the address of glyph F. -/
def FontPolicy.address : FontPolicy → Nat → Addr
  | .fallbackF, _ => BitVec.ofNat 16 (Const.fontBase + Const.glyphBytes * 15)
  | .table entries otherwise, v => FontPolicy.find v otherwise entries

/-- `DW` (R5): 64 in `Legacy8`, open in the other two modes. -/
def Config.dw (c : Config) : Mode → Nat
  | .legacy8 => 64
  | .extended16 => c.dw16
  | .extended64 => c.dw64

/-- `DH` (R5): 32 in `Legacy8`, open in the other two modes. -/
def Config.dh (c : Config) : Mode → Nat
  | .legacy8 => 32
  | .extended16 => c.dh16
  | .extended64 => c.dh64

/-- The entries of the framebuffer in a mode, `DW*DH` (spec/10_state.md, R32). -/
def Config.pixels (c : Config) (m : Mode) : Nat := c.dw m * c.dh m

/-- The physical entries of `fb` and `eb`: the largest `DW*DH` of the three modes (R39). -/
def Config.physPixels (c : Config) : Nat :=
  max (c.pixels .legacy8) (max (c.pixels .extended16) (c.pixels .extended64))

/-- The constraints a configuration must meet (R7; for the decode table R80 and
spec/92_eei_decisions.md section 2). -/
def Config.valid (c : Config) : Bool :=
  decide (1 ≤ c.dw16) && decide (1 ≤ c.dh16) && decide (1 ≤ c.dw64) && decide (1 ≤ c.dh64) &&
  decide (1 ≤ c.paletteSize) && decide (1 ≤ c.searchWindowMax) &&
  decide (c.searchWindowMax ≤ Mode.extended16.maxValue) &&
  decide (c.font.length = Const.fontBytes) && tableOk c.table

/-- PRESUMED (the spec's own default, from general knowledge of CHIP-8): the glyph table of R41, one row
of five bytes for each digit 0 to F (log 4). -/
def Config.customaryFont : List Byte :=
  [0xF0, 0x90, 0x90, 0x90, 0xF0] ++ [0x20, 0x60, 0x20, 0x20, 0x70] ++
  [0xF0, 0x10, 0xF0, 0x80, 0xF0] ++ [0xF0, 0x10, 0xF0, 0x10, 0xF0] ++
  [0x90, 0x90, 0xF0, 0x10, 0x10] ++ [0xF0, 0x80, 0xF0, 0x10, 0xF0] ++
  [0xF0, 0x80, 0xF0, 0x90, 0xF0] ++ [0xF0, 0x10, 0x20, 0x40, 0x40] ++
  [0xF0, 0x90, 0xF0, 0x90, 0xF0] ++ [0xF0, 0x90, 0xF0, 0x10, 0xF0] ++
  [0xF0, 0x90, 0xF0, 0x90, 0x90] ++ [0xE0, 0x90, 0xE0, 0x90, 0xE0] ++
  [0xF0, 0x80, 0x80, 0x80, 0xF0] ++ [0xE0, 0x90, 0x90, 0x90, 0xE0] ++
  [0xF0, 0x80, 0xF0, 0x80, 0xF0] ++ [0xF0, 0x80, 0xF0, 0x80, 0x80]

/-- DESIGN CHOICE: the configuration of `State.reset`, every parameter at the default of
spec/92_eei_decisions.md section 2 (log 3). -/
def Config.defaults : Config where
  dw16 := 128
  dh16 := 64
  dw64 := 128
  dh64 := 64
  searchWindowMax := 256
  paletteSize := 16
  font := Config.customaryFont
  fontPolicy := .fallbackF
  table := tableR80

end Sys2Proof
end

