-- ==== Sys2Proof/Machine/State.lean ====
section
/-!
DEFINITION. Machine/State.lean: the machine state (spec/10_state.md, R20) as plain data, the error
conditions (spec/60_exceptions.md, R180), the stop reasons, and the state after reset (R44).
-/

namespace Sys2Proof.Machine

/-- Memory as the list of the bytes that differ from the reset contents, addresses rising
(`Memory.wf`, Machine/Memory.lean; log 7). -/
abbrev Memory := List Host.Cell

/-- A pixel buffer as the list of its entries that are 1, rising; every other entry is 0 (R32; log 10). -/
abbrev Pixels := List Nat

/-- The active graphics effect (R38). -/
inductive Effect where
  | none
  | colorCycle
deriving DecidableEq, Repr

/-- The error conditions and the information each reports (spec/60_exceptions.md, R180). -/
inductive ErrorCond where
  /-- The opcode and the address it was fetched from. -/
  | unknownOpcode (op : Opcode) (addr : Addr)
  /-- The address of the instruction. -/
  | stackOverflow (addr : Addr)
  /-- The address of the instruction. -/
  | stackUnderflow (addr : Addr)
  /-- The first address and the length of the span. -/
  | memoryFault (addr len : Nat)
  /-- The length of the image. -/
  | romTooLarge (len : Nat)
deriving DecidableEq, Repr

/-- The status output of an operation (R183). -/
inductive Status where
  | ok
  | error (e : ErrorCond)
deriving DecidableEq, Repr

/-- Reasons to stop with a fault: none. The hardware has no trap and no halted state, and execution
continues after every error condition (R180, R217), so no instruction raises a fault and there is no
constructor to be safe or unsafe about; an error condition is a next state that `State.raise` reports
(log 1, log 2). -/
inductive Fault where
deriving DecidableEq, Repr

/-- Reasons to refuse. -/
inductive Refusal where
  /-- Raised by an arm of `exec` for an instruction that has no meaning yet; no arm raises it. Safe: a
  refused step proves nothing about the hardware. -/
  | notModelled (mnemonic : String)
deriving DecidableEq, Repr

/-- The machine. The fields down to `paletteIndex` are those of R20; the last four are the model's own. -/
structure State where
  /-- `mem` (R21). -/
  mem : Memory
  /-- `V`, physical storage for the largest mode (R22, R39). -/
  regs : Vector Cell64 Const.physRegs
  /-- `I` (R27). -/
  index : Addr
  /-- `pc` (R28). -/
  pc : Addr
  /-- `stack` (R29). -/
  stack : Vector Cell64 Const.stackDepth
  /-- `sp`, the number of occupied slots (R29). -/
  sp : Nat
  /-- `fb` (R32). -/
  fb : Pixels
  /-- `eb` (R33). -/
  eb : Pixels
  /-- `redraw` (R34). -/
  redraw : Bool
  /-- `dt` (R35). -/
  dt : BitVec 8
  /-- `st` (R35). -/
  st : BitVec 8
  /-- `keys` (R36). -/
  keys : Vector Bool Const.nkeys
  /-- `mode` (R37). -/
  mode : Mode
  /-- `effect` (R38). -/
  effect : Effect
  /-- `effect_frames` (R38). -/
  effectFrames : Nat
  /-- `palette_index` (R38). -/
  paletteIndex : Nat
  /-- The model's own: the open parameters of spec/00_scope.md, R7, the decode table among them, which no
  operation writes (log 3). -/
  cfg : Config
  /-- The model's own: how many values the random source has given (spec/48_random.md, R170; log 6). -/
  draws : Nat
  /-- The model's own: the status output of the last operation that has one (R183; log 14). -/
  status : Status
  /-- The model's own: the fault log of R184, newest first (log 14). -/
  faultLog : List ErrorCond
deriving DecidableEq, Repr

/-- What an instruction or a step answers. -/
abbrev Result := Host.Outcome State Fault Refusal

/-- The state after reset (R44) of a machine with the open parameters `c`. The memory lists nothing: an
unlisted byte reads as R44 says. -/
def State.resetWith (c : Config) : State where
  mem := []
  regs := Vector.replicate Const.physRegs 0
  index := 0
  pc := BitVec.ofNat 16 Const.origin
  stack := Vector.replicate Const.stackDepth 0
  sp := 0
  fb := []
  eb := []
  redraw := false
  dt := 0
  st := 0
  keys := Vector.replicate Const.nkeys false
  mode := .legacy8
  effect := .none
  effectFrames := 0
  paletteIndex := 0
  cfg := c
  draws := 0
  status := .ok
  faultLog := []

/-- The machine right after reset, with the open parameters at the spec's defaults (DESIGN CHOICE, log 3). -/
def State.reset : State := State.resetWith Config.defaults

end Sys2Proof.Machine
end

