-- ==== Sys2Proof/Machine/Flags.lean ====
section
/-!
DEFINITION. Machine/Flags.lean: every value an instruction writes to the flags register as a side effect
(spec/10_state.md, R24), as functions of the mode and of the operands before the writes.
-/

namespace Sys2Proof.Machine

/-- A condition as a flag value. -/
def boolFlag (b : Bool) : Nat := if b then 1 else 0

/-- `ADD Vx, Vy`: the carry out of bit `W-1` (spec/41_arithmetic.md, R116). -/
def carryFlag (m : Mode) (a b : Nat) : Nat := boolFlag (decide (m.maxValue < a + b))

/-- `SUB` and `SUBN`: not-borrow, 1 when minuend >= subtrahend (R117, R119). -/
def notBorrowFlag (minuend subtrahend : Nat) : Nat := boolFlag (decide (subtrahend ≤ minuend))

/-- `SHR`: bit 0 before the shift (R118). -/
def shiftOutLowFlag (a : Nat) : Nat := a % 2

/-- `SHL`: bit `W-1` before the shift (R120). -/
def shiftOutHighFlag (m : Mode) (a : Nat) : Nat := a / 2 ^ (m.regBits - 1) % 2

/-- `MUL`: the product does not fit `W` bits (spec/42_extended_math.md, R125). -/
def overflowFlag (m : Mode) (a b : Nat) : Nat := boolFlag (decide (m.maxValue < a * b))

/-- `DIV`: the remainder, 0 when the divisor is 0 (R126). -/
def remainderFlag (a b : Nat) : Nat := if b = 0 then 0 else a % b

/-- `DOT`: bits `2W-1..W` of the sum of products (R128). -/
def dotHighFlag (m : Mode) (p : Nat) : Nat := p / 2 ^ m.regBits % 2 ^ m.regBits

/-- `BSRCH`: the offset of the first match, or `MAXV` when there is none (spec/43_memory_block.md, R136). -/
def searchFlag (m : Mode) : Option Nat → Nat
  | some u => u
  | none => m.maxValue

/-- The drawing instructions: 1 if a set pixel was turned off (spec/44_display.md, R140). -/
def collisionFlag (c : Bool) : Nat := boolFlag c

end Sys2Proof.Machine
end

