-- ==== Sys2Proof/Machine/Memory.lean ====
section
/-!
DEFINITION. Machine/Memory.lean: one byte of memory, read and written on the canonical list
(spec/10_state.md, R21; spec/20_memory.md, R54, R56).
-/

namespace Sys2Proof.Machine

/-- What an address that the list does not name reads as: the reset contents of R44, `FONT[a]` below 80
and 0 above (`FONT_BASE` is 0). -/
def Memory.unlisted (font : List Byte) (a : Nat) : Byte := font.getD a 0

/-- The byte at an address. -/
def Memory.read (font : List Byte) (a : Nat) : Memory → Byte
  | [] => Memory.unlisted font a
  | (b, v) :: rest => if b = a then v else Memory.read font a rest

/-- The list without any entry for an address. -/
def Memory.erase (a : Nat) : Memory → Memory
  | [] => []
  | (b, v) :: rest => if b = a then Memory.erase a rest else (b, v) :: Memory.erase a rest

/-- The list with an entry put before the first higher address. -/
def Memory.insert (a : Nat) (v : Byte) : Memory → Memory
  | [] => [(a, v)]
  | (b, w) :: rest => if a < b then (a, v) :: (b, w) :: rest else (b, w) :: Memory.insert a v rest

/-- A write of one byte: it changes that byte only (R56). Writing what an unlisted address reads as
removes the entry. -/
def Memory.write (font : List Byte) (a : Nat) (v : Byte) (m : Memory) : Memory :=
  if v = Memory.unlisted font a then Memory.erase a m
  else Memory.insert a v (Memory.erase a m)

/-- The canonical form: addresses strictly rising and physical (R39), and no entry equal to what an
unlisted address reads as. -/
def Memory.wf (font : List Byte) (m : Memory) : Bool :=
  decide (m.Pairwise fun c d => c.1 < d.1) &&
  m.all fun c => decide (c.1 < Const.physMem) && decide (c.2 ≠ Memory.unlisted font c.1)

end Sys2Proof.Machine
end

