-- ==== Sys2Proof/Machine/Ops.lean ====
section
/-!
DEFINITION. Machine/Ops.lean: the named operations over the state that the meanings share
(spec/00_scope.md, R10): one setter for each field, registers, memory, stack, error reports, pixels, draws.
-/

namespace Sys2Proof.Machine

/-! ## One setter for each field -/

/-- Replace `mem`. -/
def State.setMem (s : State) (m : Memory) : State := { s with mem := m }
/-- Replace the whole register file. -/
def State.setRegs (s : State) (r : Vector Cell64 Const.physRegs) : State := { s with regs := r }
/-- `I <- v`. -/
def State.setIndex (s : State) (a : Addr) : State := { s with index := a }
/-- `pc <- v`. -/
def State.setPc (s : State) (a : Addr) : State := { s with pc := a }
/-- Replace the stack's slots and the stack pointer. -/
def State.setStack (s : State) (k : Vector Cell64 Const.stackDepth) (n : Nat) : State :=
  { s with stack := k, sp := n }
/-- Replace `fb`. -/
def State.setFb (s : State) (p : Pixels) : State := { s with fb := p }
/-- Replace `eb`. -/
def State.setEb (s : State) (p : Pixels) : State := { s with eb := p }
/-- `redraw <- b`. -/
def State.setRedraw (s : State) (b : Bool) : State := { s with redraw := b }
/-- `dt <- v`. -/
def State.setDt (s : State) (v : BitVec 8) : State := { s with dt := v }
/-- `st <- v`. -/
def State.setSt (s : State) (v : BitVec 8) : State := { s with st := v }
/-- Replace `keys`. -/
def State.setKeys (s : State) (k : Vector Bool Const.nkeys) : State := { s with keys := k }
/-- `mode <- m`, and nothing else. -/
def State.putMode (s : State) (m : Mode) : State := { s with mode := m }
/-- `effect <- e`. -/
def State.putEffect (s : State) (e : Effect) : State := { s with effect := e }
/-- Replace the frame counter and the palette index. -/
def State.setCycle (s : State) (frames palette : Nat) : State :=
  { s with effectFrames := frames, paletteIndex := palette }
/-- Replace the draw counter. -/
def State.setDraws (s : State) (n : Nat) : State := { s with draws := n }
/-- Replace the status output. -/
def State.setStatus (s : State) (t : Status) : State := { s with status := t }
/-- Replace the fault log. -/
def State.setFaultLog (s : State) (l : List ErrorCond) : State := { s with faultLog := l }

/-! ## Error conditions: this hardware's exceptions -/

/-- `raise E(info)` (spec/00_scope.md, R10; spec/60_exceptions.md, R180, R181, R184, R187): the error
condition goes on the status output and into the fault log. It saves nothing, changes no mode and no
mask and moves no `pc`; every check of an instruction comes before its first write, so the state it is
applied to is the one after the fetch phase. There is no return from it (R187). -/
def State.raise (e : ErrorCond) (s : State) : State :=
  (s.setStatus (.error e)).setFaultLog (e :: s.faultLog)

/-- The numeric code of an error condition (R180). -/
def ErrorCond.code : ErrorCond → Nat
  | .unknownOpcode _ _ => 1
  | .stackOverflow _ => 2
  | .stackUnderflow _ => 3
  | .memoryFault _ _ => 4
  | .romTooLarge _ => 5

/-- The address of the executing instruction, whose `pc` is already advanced (R71, R101). -/
def State.instrAddr (s : State) : Addr := s.pc - BitVec.ofNat 16 Const.opcodeBytes

/-! ## Registers -/

/-- `V[i]`: the low `W` bits of a physical register (spec/10_state.md, R22, R39; log 8). -/
def State.reg (s : State) (i : Fin Const.physRegs) : Nat :=
  (s.regs[i.val]'i.isLt).toNat % 2 ^ s.mode.regBits

/-- `V[i] <- v`: every register write stores `v mod 2^W` (R23). -/
def State.setReg (s : State) (i : Fin Const.physRegs) (v : Nat) : State :=
  s.setRegs (s.regs.set i.val (BitVec.ofNat 64 (v % 2 ^ s.mode.regBits)) i.isLt)

/-- The register a 4-bit field names: 0 to 15 in every mode (R26). -/
def fieldReg (x : RegField) : Fin Const.physRegs :=
  ⟨x.toNat, Nat.lt_trans x.isLt (by decide)⟩

/-- The flags register, index `N-1` (R24). -/
def flagReg (m : Mode) : Fin Const.physRegs :=
  ⟨m.regCount - 1, by cases m <;> decide⟩

/-- The next register, modulo the register-file size `N` (spec/42_extended_math.md, R127). -/
def nextReg (m : Mode) (i : Fin Const.physRegs) : Fin Const.physRegs :=
  ⟨(i.val + 1) % m.regCount, by
    cases m <;> exact Nat.lt_of_lt_of_le (Nat.mod_lt _ (by decide)) (by decide)⟩

/-- `V[F] <- v`. -/
def State.setFlag (s : State) (v : Nat) : State := s.setReg (flagReg s.mode) v

/-- The two writes of an instruction with a result and a flag: the result first, the flag second
(R25). Both values are computed by the caller before either write. -/
def State.setResultFlag (s : State) (i : Fin Const.physRegs) (result flag : Nat) : State :=
  (s.setReg i result).setFlag flag

/-! ## Index register and program counter -/

/-- `I <- v` for an unbounded value: modulo `2^16` (R27). -/
def State.setIndexNat (s : State) (v : Nat) : State := s.setIndex (BitVec.ofNat 16 v)

/-- `pc <- v` for an unbounded value: modulo `2^16` (R28). -/
def State.setPcNat (s : State) (v : Nat) : State := s.setPc (BitVec.ofNat 16 v)

/-- `skip`: `pc <- pc + 2` on the already advanced `pc` (spec/00_scope.md, R10). -/
def State.skip (s : State) : State := s.setPc (s.pc + BitVec.ofNat 16 Const.opcodeBytes)

/-- Skip the next instruction when a condition holds (spec/40_control_flow.md, R103). -/
def State.skipIf (s : State) (b : Bool) : State := if b then s.skip else s

/-! ## Memory -/

/-- `mem[a]`. -/
def State.readByte (s : State) (a : Nat) : Byte := Memory.read s.cfg.font a s.mem

/-- `mem[a] <- v`. -/
def State.writeByte (s : State) (a : Nat) (v : Byte) : State :=
  s.setMem (Memory.write s.cfg.font a v s.mem)

/-- The bytes `mem[a], mem[a+1], ..., mem[a+n-1]`. -/
def State.readBytes (s : State) (a n : Nat) : List Byte :=
  (List.range n).map fun k => s.readByte (a + k)

/-- The bytes of a list stored at consecutive addresses from `a` on. -/
def State.writeBytes (s : State) (a : Nat) : List Byte → State
  | [] => s
  | b :: bs => (s.writeByte a b).writeBytes (a + 1) bs

/-- A byte list as a number, first byte most significant (spec/20_memory.md, R53). -/
def bigEndian (bs : List Byte) : Nat := bs.foldl (fun v b => v * 256 + b.toNat) 0

/-- The `n` bytes of a number, most significant first (`MemWrite` of spec/00_scope.md, R10). -/
def bytesOf (n v : Nat) : List Byte :=
  (List.range n).map fun k => BitVec.ofNat 8 (v / 256 ^ (n - 1 - k))

/-- `MemRead(a, n)` after its check. -/
def State.memRead (s : State) (a n : Nat) : Nat := bigEndian (s.readBytes a n)

/-- `MemWrite(a, n, v)` after its check. -/
def State.memWrite (s : State) (a n v : Nat) : State := s.writeBytes a (bytesOf n v)

/-- The condition of `CheckSpan(a, len)`: the span is empty or ends inside memory, on unbounded
integers (spec/20_memory.md, R57). -/
def State.spanOk (s : State) (a len : Nat) : Bool :=
  decide (len = 0) || decide (a + len ≤ s.mode.memSize)

/-- `CheckSpan(a, len)` and then the rest of the instruction: a failed check reports `MemoryFault` and
leaves everything else (R57). -/
def State.checkSpan (s : State) (a len : Nat) (rest : State) : State :=
  if s.spanOk a len then rest else s.raise (.memoryFault a len)

/-! ## Stack -/

/-- The contents of slot `k`. -/
def State.slot (s : State) (k : Nat) : Cell64 := s.stack[k]?.getD 0

/-- `Push(v)`: the caller has checked that a slot is free (spec/10_state.md, R30). -/
def State.push (s : State) (v : Cell64) : State :=
  s.setStack (s.stack.setIfInBounds s.sp v) (s.sp + 1)

/-- The result of `Pop()`: the top slot; the caller has checked that a slot is occupied (R31). -/
def State.top (s : State) : Cell64 := s.slot (s.sp - 1)

/-- The effect of `Pop()`: one slot fewer is occupied, and the slot keeps its contents (R31). -/
def State.drop (s : State) : State := s.setStack s.stack (s.sp - 1)

/-- At least `n` slots are free (spec/40_control_flow.md, R101; spec/49_call_with_parameters.md, R175). -/
def State.hasFree (s : State) (n : Nat) : Bool := decide (s.sp + n ≤ Const.stackDepth)

/-- At least `n` slots are occupied (R102, R176). -/
def State.hasOccupied (s : State) (n : Nat) : Bool := decide (n ≤ s.sp)

/-! ## Framebuffer -/

/-- `DW` of the current mode. -/
def State.dw (s : State) : Nat := s.cfg.dw s.mode
/-- `DH` of the current mode. -/
def State.dh (s : State) : Nat := s.cfg.dh s.mode
/-- `DW*DH` of the current mode. -/
def State.pixelCount (s : State) : Nat := s.cfg.pixels s.mode

/-- Whether an entry of a pixel buffer is 1. -/
def Pixels.on (p : Pixels) (j : Nat) : Bool := p.contains j

/-- An entry put before the first higher one. -/
def Pixels.insert (j : Nat) : Pixels → Pixels
  | [] => [j]
  | k :: rest => if j < k then j :: k :: rest else k :: Pixels.insert j rest

/-- `fb[j] <- fb[j] XOR 1` (spec/44_display.md, R141). -/
def Pixels.toggle (p : Pixels) (j : Nat) : Pixels :=
  if p.on j then p.filter fun k => k != j else Pixels.insert j p

/-- The entries of a buffer from `n` on, those outside the window of a mode (spec/10_state.md, R39). -/
def Pixels.outside (p : Pixels) (n : Nat) : Pixels := p.filter fun k => decide (n ≤ k)

/-- The entries of a buffer below `n`, the window of a mode (R39). -/
def Pixels.inside (p : Pixels) (n : Nat) : Pixels := p.filter fun k => decide (k < n)

/-- The canonical form of a buffer of `n` physical entries: strictly rising entries below `n`. -/
def Pixels.wf (n : Nat) (p : Pixels) : Bool :=
  decide (p.Pairwise (· < ·)) && p.all fun j => decide (j < n)

/-- The arguments of one `Pixel(px, py, bit)` call (R141). -/
structure Dot where
  px : Nat
  py : Nat
  bit : Bool
deriving DecidableEq, Repr

/-- The framebuffer entry a pixel call addresses: coordinates modulo the display dimensions (R141). -/
def State.pixelIndex (s : State) (px py : Nat) : Nat := (py % s.dh) * s.dw + px % s.dw

/-- `Pixel(px, py, bit)` on a framebuffer and the collision flag `c`, the test on the value before the
XOR; `bit = 0` reads and writes nothing (R141). -/
def State.pixel (s : State) (acc : Pixels × Bool) (d : Dot) : Pixels × Bool :=
  if d.bit then
    (acc.1.toggle (s.pixelIndex d.px d.py), acc.2 || acc.1.on (s.pixelIndex d.px d.py))
  else acc

/-- The pixel calls of a drawing instruction in order, from `c = 0` (R140). -/
def State.plot (s : State) (dots : List Dot) : Pixels × Bool := dots.foldl s.pixel (s.fb, false)

/-- The common end of the drawing instructions: the pixels, then `V[F] <- c`, then `redraw <- true`
(R140). -/
def State.drawDots (s : State) (dots : List Dot) : State :=
  ((s.setFb (s.plot dots).1).setFlag (collisionFlag (s.plot dots).2)).setRedraw true

/-! ## The random source -/

/-- The value of the next draw, before its reduction to a range (spec/48_random.md, R170). DESIGN CHOICE: it
depends on the counter alone, so two runs from one state draw the same values, and a draw of any kind at
one index reads one value; the spec says neither (spec/91_not_in_source.md, N10; log 6). -/
def State.nextDraw (s : State) : Nat := (Config.randomSource s.draws).toNat

/-- One value of the random source is used up. -/
def State.drawn (s : State) : State := s.setDraws (s.draws + 1)

end Sys2Proof.Machine
end

