-- ==== Sys2Proof/Machine/Operands.lean ====
section
/-!
DEFINITION. Machine/Operands.lean: every operand form of the instruction set (spec/30_encoding.md, R73,
R74): registers by field, immediates, key numbers, register pairs, copy and search spans, and the pixel
calls of the drawing instructions.
-/

namespace Sys2Proof.Machine

/-- `V[x]` for a field `x`. -/
def State.v (s : State) (x : RegField) : Nat := s.reg (fieldReg x)

/-- `V[x] <- v` for a field `x`. -/
def State.setV (s : State) (x : RegField) (v : Nat) : State := s.setReg (fieldReg x) v

/-- The second register of the pair that a field names, `(x + 1) mod N` (spec/42_extended_math.md, R127). -/
def State.pairReg (s : State) (x : RegField) : Fin Const.physRegs := nextReg s.mode (fieldReg x)

/-- The second element of the pair that a field names. -/
def State.v1 (s : State) (x : RegField) : Nat := s.reg (s.pairReg x)

/-- An 8-bit literal meeting a register: zero-extended (R74). -/
def imm8 (kk : BitVec 8) : Nat := kk.toNat

/-- A 12-bit address literal: zero-extended to 16 bits (R74). -/
def addr12 (nnn : BitVec 12) : Addr := nnn.setWidth 16

/-- The key a register value names: its low four bits (spec/45_input.md, R150). -/
def keyIndex (v : Nat) : Fin Const.nkeys := ⟨v % Const.nkeys, Nat.mod_lt _ (by decide)⟩

/-- Whether a key is down. -/
def State.keyDown (s : State) (k : Fin Const.nkeys) : Bool := s.keys[k.val]'k.isLt

/-- The least key that is down, scanning upward from key 0 (R153). -/
def State.firstKey (s : State) : Option (Fin Const.nkeys) :=
  (List.finRange Const.nkeys).find? s.keyDown

/-- The rotate amount, modulo the width (R129). -/
def rotateAmount (m : Mode) (v : Nat) : Nat := v % m.regBits

/-- The number of 1 bits among the low `w` bits (R131). -/
def popCount (w v : Nat) : Nat := ((List.range w).filter fun i => v.testBit i).length

/-- The destination address of `BCOPY`, `(I + V[x]) mod 2^16` (spec/43_memory_block.md, R135). -/
def State.copyTarget (s : State) (x : RegField) : Nat := (s.index.toNat + s.v x) % 2 ^ 16

/-- The value units `BSRCH` examines, `min(V[y], SEARCH_WINDOW_MAX)` (R136). -/
def State.searchUnits (s : State) (y : RegField) : Nat := min (s.v y) s.cfg.searchWindowMax

/-- The first of the value units `u, u+1, ..., u+c-1` from address `a` on that equals the needle (R136). -/
def State.searchFrom (s : State) (a needle : Nat) : Nat → Nat → Option Nat
  | _, 0 => none
  | u, c + 1 =>
    if s.memRead (a + u * s.mode.regBytes) s.mode.regBytes = needle then some u
    else s.searchFrom a needle (u + 1) c

/-- The glyph address of `LD F`: by digit up to 15, by the policy above (spec/47_index_font_bcd_bulk.md,
R162). -/
def glyphAddress (c : Config) (v : Nat) : Addr :=
  if v ≤ 15 then BitVec.ofNat 16 (Const.fontBase + Const.glyphBytes * v) else c.fontPolicy.address v

/-- The BCD digits of a value, most significant first (R163). -/
def bcdDigits (n v : Nat) : List Byte :=
  (List.range n).map fun k => BitVec.ofNat 8 (v / 10 ^ (n - 1 - k) % 10)

/-- The bytes a bulk transfer of `V0..Vx` moves, `(x+1)*B` (R164). -/
def State.bulkLength (s : State) (x : RegField) : Nat := (x.toNat + 1) * s.mode.regBytes

/-- The register images `V0..Vx` in memory order (R164). -/
def State.bulkBytes (s : State) (x : RegField) : List Byte :=
  (List.range (x.toNat + 1)).flatMap fun i => bytesOf s.mode.regBytes (s.v (BitVec.ofNat 4 i))

/-- `V0..V(n-1)` loaded from consecutive register images of `t` at `I` (R165). -/
def State.loadRegs (s t : State) : Nat → State
  | 0 => s
  | n + 1 =>
    (s.loadRegs t n).setV (BitVec.ofNat 4 n)
      (t.memRead (t.index.toNat + n * t.mode.regBytes) t.mode.regBytes)

/-- `I` advanced past a bulk transfer in the modes that do so (R164, R165). -/
def State.autoAdvance (s : State) (len : Nat) : State :=
  if s.mode.autoInc then s.setIndexNat (s.index.toNat + len) else s

/-! ## The pixel calls of the drawing instructions -/

/-- The start column of a drawing instruction, `V[x] mod DW` (spec/44_display.md, R143). -/
def State.startX (s : State) (x : RegField) : Nat := s.v x % s.dw
/-- The start row, `V[y] mod DH` (R143). -/
def State.startY (s : State) (y : RegField) : Nat := s.v y % s.dh

/-- The eight pixels of a sprite byte, bit 7 leftmost (R143). -/
def byteDots (px py : Nat) (b : Byte) : List Dot :=
  (List.range 8).map fun col => { px := px + col, py := py, bit := b.getLsbD (7 - col) }

/-- The pixel calls of a sprite of `rows` rows of `bpr` bytes at `I` (R143 to R145). -/
def State.spriteDots (s : State) (x y : RegField) (rows bpr : Nat) : List Dot :=
  (List.range rows).flatMap fun r =>
    (List.range bpr).flatMap fun k =>
      byteDots (s.startX x + 8 * k) (s.startY y + r) (s.readByte (s.index.toNat + bpr * r + k))

/-- The line pattern, register 0 (R146). -/
def State.linePattern (s : State) : Nat := s.reg 0

/-- The pixel calls of a horizontal line, clamped to the remaining width, bit `W-1` first (R146). -/
def State.hlineDots (s : State) (x y : RegField) : List Dot :=
  (List.range (min s.mode.regBits (s.dw - s.startX x))).map fun i =>
    { px := s.startX x + i, py := s.startY y, bit := s.linePattern.testBit (s.mode.regBits - 1 - i) }

/-- The pixel calls of a vertical line, clamped to the remaining height (R147). -/
def State.vlineDots (s : State) (x y : RegField) : List Dot :=
  (List.range (min s.mode.regBits (s.dh - s.startY y))).map fun i =>
    { px := s.startX x, py := s.startY y + i, bit := s.linePattern.testBit (s.mode.regBits - 1 - i) }

end Sys2Proof.Machine
end

