-- ==== Sys2Proof/Machine/Arithmetic.lean ====
section
/-!
DEFINITION. Machine/Arithmetic.lean: the immediate and arithmetic instructions (spec/41_arithmetic.md,
R110 to R121). Results are exact numbers; `setV` and `setResultFlag` narrow them to `W` bits (R23).
-/

namespace Sys2Proof.Machine

/-- `LD Vx, kk` (R110). -/
def execLdImm (x : RegField) (kk : BitVec 8) (s : State) : Result := .next (s.setV x (imm8 kk))

/-- `ADD Vx, kk` (R111): no flag. -/
def execAddImm (x : RegField) (kk : BitVec 8) (s : State) : Result :=
  .next (s.setV x (s.v x + imm8 kk))

/-- `LD Vx, Vy` (R112). -/
def execLdReg (x y : RegField) (s : State) : Result := .next (s.setV x (s.v y))

/-- `OR Vx, Vy` (R113): no flag. -/
def execOrReg (x y : RegField) (s : State) : Result := .next (s.setV x (s.v x ||| s.v y))

/-- `AND Vx, Vy` (R114): no flag. -/
def execAndReg (x y : RegField) (s : State) : Result := .next (s.setV x (s.v x &&& s.v y))

/-- `XOR Vx, Vy` (R115): no flag. -/
def execXorReg (x y : RegField) (s : State) : Result := .next (s.setV x (s.v x ^^^ s.v y))

/-- `ADD Vx, Vy` (R116). -/
def execAddReg (x y : RegField) (s : State) : Result :=
  .next (s.setResultFlag (fieldReg x) (s.v x + s.v y) (carryFlag s.mode (s.v x) (s.v y)))

/-- The difference modulo `2^W` of two register values (R117, R121). -/
def subMod (m : Mode) (a b : Nat) : Nat := (a + 2 ^ m.regBits - b) % 2 ^ m.regBits

/-- `SUB Vx, Vy` (R117). -/
def execSub (x y : RegField) (s : State) : Result :=
  .next (s.setResultFlag (fieldReg x) (subMod s.mode (s.v x) (s.v y))
    (notBorrowFlag (s.v x) (s.v y)))

/-- `SHR Vx` (R118): `V[x]` in place. -/
def execShr (x : RegField) (s : State) : Result :=
  .next (s.setResultFlag (fieldReg x) (s.v x / 2) (shiftOutLowFlag (s.v x)))

/-- `SUBN Vx, Vy` (R119). -/
def execSubn (x y : RegField) (s : State) : Result :=
  .next (s.setResultFlag (fieldReg x) (subMod s.mode (s.v y) (s.v x))
    (notBorrowFlag (s.v y) (s.v x)))

/-- `SHL Vx` (R120): `V[x]` in place. -/
def execShl (x : RegField) (s : State) : Result :=
  .next (s.setResultFlag (fieldReg x) (2 * s.v x) (shiftOutHighFlag s.mode (s.v x)))

end Sys2Proof.Machine
end

