-- ==== Sys2Proof/Machine/CallParams.lean ====
section
/-!
DEFINITION. Machine/CallParams.lean: call with parameters and return with value
(spec/49_call_with_parameters.md, R175 to R177).
-/

namespace Sys2Proof.Machine

/-- The four pushes of a frame: the return address, then the auxiliary registers in order (R177). -/
def State.pushFrame (s : State) : State :=
  (((s.push (s.pc.setWidth 64)).push (BitVec.ofNat 64 (s.reg Const.aux1))).push
    (BitVec.ofNat 64 (s.reg Const.aux2))).push (BitVec.ofNat 64 (s.reg Const.aux3))

/-- `CALLP nnn` (R175): the check for four free slots comes before any push. -/
def execCallp (nnn : BitVec 12) (s : State) : Result :=
  .next (if s.hasFree Const.frameSlots then s.pushFrame.setPc (addr12 nnn)
    else s.raise (.stackOverflow s.instrAddr))

/-- `V[i] <- Pop()`: the slot masked to `W` bits by the register write (R176). -/
def State.popReg (s : State) (i : Fin Const.physRegs) : State := (s.setReg i s.top.toNat).drop

/-- `pc <- Pop()`: the low 16 bits of the slot (R176). -/
def State.popPc (s : State) : State := (s.setPc (s.top.setWidth 16)).drop

/-- `RETV` (R176): the return value is read first, the auxiliary registers and `pc` are restored, and
the result register is written last. -/
def execRetv (s : State) : Result :=
  .next (if s.hasOccupied Const.frameSlots then
      ((((s.popReg Const.aux3).popReg Const.aux2).popReg Const.aux1).popPc).setReg
        Const.result (s.reg Const.retval)
    else s.raise (.stackUnderflow s.instrAddr))

end Sys2Proof.Machine
end

