-- ==== Sys2Proof/Machine/ControlFlow.lean ====
section
/-!
DEFINITION. Machine/ControlFlow.lean: the control flow instructions (spec/40_control_flow.md, R100 to R108).
In every meaning `pc` is the post-fetch value, the address of the instruction plus 2 (R71).
-/

namespace Sys2Proof.Machine

/-- `JP nnn` (R100). -/
def execJp (nnn : BitVec 12) (s : State) : Result := .next (s.setPc (addr12 nnn))

/-- `CALL nnn` (R101). -/
def execCall (nnn : BitVec 12) (s : State) : Result :=
  .next (if s.hasFree 1 then (s.push (s.pc.setWidth 64)).setPc (addr12 nnn)
    else s.raise (.stackOverflow s.instrAddr))

/-- `RET` (R102): the low 16 bits of the top slot. -/
def execRet (s : State) : Result :=
  .next (if s.hasOccupied 1 then s.drop.setPc (s.top.setWidth 16)
    else s.raise (.stackUnderflow s.instrAddr))

/-- `SE Vx, kk` (R103): the whole register is compared with the zero-extended literal. -/
def execSeImm (x : RegField) (kk : BitVec 8) (s : State) : Result :=
  .next (s.skipIf (decide (s.v x = imm8 kk)))

/-- `SNE Vx, kk` (R104). -/
def execSneImm (x : RegField) (kk : BitVec 8) (s : State) : Result :=
  .next (s.skipIf (decide (s.v x ≠ imm8 kk)))

/-- `SE Vx, Vy` (R105). -/
def execSeReg (x y : RegField) (s : State) : Result := .next (s.skipIf (decide (s.v x = s.v y)))

/-- `SNE Vx, Vy` (R106). -/
def execSneReg (x y : RegField) (s : State) : Result := .next (s.skipIf (decide (s.v x ≠ s.v y)))

/-- `JP V0, nnn` (R107): the sum modulo `2^16`. -/
def execJpV0 (nnn : BitVec 12) (s : State) : Result := .next (s.setPcNat (nnn.toNat + s.reg 0))

end Sys2Proof.Machine
end

