-- ==== Sys2Proof/Machine/Display.lean ====
section
/-!
DEFINITION. Machine/Display.lean: the display instructions (spec/44_display.md, R140 to R148).
-/

namespace Sys2Proof.Machine

/-- `CLS` (R142): the window of the current mode is cleared; entries outside it are unreachable in this
mode and keep their contents (spec/10_state.md, R39). -/
def execCls (s : State) : Result :=
  .next ((s.setFb (s.fb.outside s.pixelCount)).setRedraw true)

/-- `DRW Vx, Vy, n` (R143). -/
def execDrw (x y : RegField) (n : BitVec 4) (s : State) : Result :=
  .next (s.checkSpan s.index.toNat n.toNat (s.drawDots (s.spriteDots x y n.toNat 1)))

/-- `DRW16 Vx, Vy` (R144): 16 rows of 2 bytes. -/
def execDrw16 (x y : RegField) (s : State) : Result :=
  .next (s.checkSpan s.index.toNat 32 (s.drawDots (s.spriteDots x y 16 2)))

/-- `DRW32 Vx, Vy` (R145): 32 rows of 4 bytes. -/
def execDrw32 (x y : RegField) (s : State) : Result :=
  .next (s.checkSpan s.index.toNat 128 (s.drawDots (s.spriteDots x y 32 4)))

/-- `HLINE Vx, Vy` (R146). -/
def execHline (x y : RegField) (s : State) : Result := .next (s.drawDots (s.hlineDots x y))

/-- `VLINE Vx, Vy` (R147). -/
def execVline (x y : RegField) (s : State) : Result := .next (s.drawDots (s.vlineDots x y))

end Sys2Proof.Machine
end

