-- ==== Sys2Proof/Machine/ExtendedMath.lean ====
section
/-!
DEFINITION. Machine/ExtendedMath.lean: the extended math instructions (spec/42_extended_math.md, R125 to
R132), which decode in the extended modes only.
-/

namespace Sys2Proof.Machine

/-- `MUL Vx, Vy` (R125). -/
def execMul (x y : RegField) (s : State) : Result :=
  .next (s.setResultFlag (fieldReg x) (s.v x * s.v y) (overflowFlag s.mode (s.v x) (s.v y)))

/-- The quotient of `DIV`: `MAXV` when the divisor is 0 (R126). -/
def quotient (m : Mode) (a b : Nat) : Nat := if b = 0 then m.maxValue else a / b

/-- `DIV Vx, Vy` (R126). -/
def execDiv (x y : RegField) (s : State) : Result :=
  .next (s.setResultFlag (fieldReg x) (quotient s.mode (s.v x) (s.v y))
    (remainderFlag (s.v x) (s.v y)))

/-- `VADD Vx, Vy` (R127): all four reads before the two writes, no flag. -/
def execVadd (x y : RegField) (s : State) : Result :=
  .next ((s.setV x (s.v x + s.v y)).setReg (s.pairReg x) (s.v1 x + s.v1 y))

/-- The sum of the lane products (R128). -/
def State.dotSum (s : State) (x y : RegField) : Nat := s.v x * s.v y + s.v1 x * s.v1 y

/-- `DOT Vx, Vy` (R128). -/
def execDot (x y : RegField) (s : State) : Result :=
  .next (s.setResultFlag (fieldReg x) (s.dotSum x y) (dotHighFlag s.mode (s.dotSum x y)))

/-- A `w`-bit value rotated right by `r < w` (R129). -/
def rotateRight (w a r : Nat) : Nat := if r = 0 then a else a / 2 ^ r + a % 2 ^ r * 2 ^ (w - r)

/-- A `w`-bit value rotated left by `r < w` (R130). -/
def rotateLeft (w a r : Nat) : Nat :=
  if r = 0 then a else a * 2 ^ r % 2 ^ w + a / 2 ^ (w - r)

/-- `ROR Vx, Vy` (R129): no flag. -/
def execRor (x y : RegField) (s : State) : Result :=
  .next (s.setV x (rotateRight s.mode.regBits (s.v x) (rotateAmount s.mode (s.v y))))

/-- `ROL Vx, Vy` (R130): no flag. -/
def execRol (x y : RegField) (s : State) : Result :=
  .next (s.setV x (rotateLeft s.mode.regBits (s.v x) (rotateAmount s.mode (s.v y))))

/-- `POPCNT Vx, Vy` (R131): the count of `V[y]` into `V[x]`, no flag. -/
def execPopcnt (x y : RegField) (s : State) : Result :=
  .next (s.setV x (popCount s.mode.regBits (s.v y)))

end Sys2Proof.Machine
end

