-- ==== Sys2Proof/Machine/IndexFontBcdBulk.lean ====
section
/-!
DEFINITION. Machine/IndexFontBcdBulk.lean: the index, font, BCD and bulk transfer instructions
(spec/47_index_font_bcd_bulk.md, R160 to R165).
-/

namespace Sys2Proof.Machine

/-- `LD I, nnn` (R160). -/
def execLdI (nnn : BitVec 12) (s : State) : Result := .next (s.setIndex (addr12 nnn))

/-- `ADD I, Vx` (R161): modulo `2^16`, no flag. -/
def execAddI (x : RegField) (s : State) : Result := .next (s.setIndexNat (s.index.toNat + s.v x))

/-- `LD F, Vx` (R162). -/
def execLdF (x : RegField) (s : State) : Result := .next (s.setIndex (glyphAddress s.cfg (s.v x)))

/-- `LD B, Vx` (R163): `I` is unchanged. -/
def execLdB (x : RegField) (s : State) : Result :=
  .next (s.checkSpan s.index.toNat s.mode.digits
    (s.writeBytes s.index.toNat (bcdDigits s.mode.digits (s.v x))))

/-- `LD [I], Vx` (R164). -/
def execLdMemVx (x : RegField) (s : State) : Result :=
  .next (s.checkSpan s.index.toNat (s.bulkLength x)
    ((s.writeBytes s.index.toNat (s.bulkBytes x)).autoAdvance (s.bulkLength x)))

/-- `LD Vx, [I]` (R165). -/
def execLdVxMem (x : RegField) (s : State) : Result :=
  .next (s.checkSpan s.index.toNat (s.bulkLength x)
    ((s.loadRegs s (x.toNat + 1)).autoAdvance (s.bulkLength x)))

end Sys2Proof.Machine
end

