-- ==== Sys2Proof/Machine/Input.lean ====
section
/-!
DEFINITION. Machine/Input.lean: the input instructions (spec/45_input.md, R150 to R153).
-/

namespace Sys2Proof.Machine

/-- `SKP Vx` (R151). -/
def execSkp (x : RegField) (s : State) : Result := .next (s.skipIf (s.keyDown (keyIndex (s.v x))))

/-- `SKNP Vx` (R152). -/
def execSknp (x : RegField) (s : State) : Result :=
  .next (s.skipIf (!s.keyDown (keyIndex (s.v x))))

/-- `LD Vx, K` (R153): the least key that is down, or `pc` back to this instruction. -/
def execLdVxK (x : RegField) (s : State) : Result :=
  .next (match s.firstKey with
    | some k => s.setV x k.val
    | none => s.setPc s.instrAddr)

end Sys2Proof.Machine
end

