-- ==== Sys2Proof/Machine/MemoryBlock.lean ====
section
/-!
DEFINITION. Machine/MemoryBlock.lean: block copy and block search (spec/43_memory_block.md, R135, R136).
-/

namespace Sys2Proof.Machine

/-- `BCOPY Vx, Vy` (R135): both spans are checked, the source first; every source byte is read before
any destination byte is written. -/
def execBcopy (x y : RegField) (s : State) : Result :=
  .next (s.checkSpan s.index.toNat (s.v y)
    (s.checkSpan (s.copyTarget x) (s.v y)
      (s.writeBytes (s.copyTarget x) (s.readBytes s.index.toNat (s.v y)))))

/-- `BSRCH Vx, Vy` (R136): the whole window is checked before the search. -/
def execBsrch (x y : RegField) (s : State) : Result :=
  .next (s.checkSpan s.index.toNat (s.searchUnits y * s.mode.regBytes)
    (s.setFlag (searchFlag s.mode (s.searchFrom s.index.toNat (s.v x) 0 (s.searchUnits y)))))

end Sys2Proof.Machine
end

