-- ==== Sys2Proof/Machine/Random.lean ====
section
/-!
DEFINITION. Machine/Random.lean: the random number instructions (spec/48_random.md, R170 to R173). A draw
is a free value reduced to the range the rule gives (log 6).
-/

namespace Sys2Proof.Machine

/-- `draw_byte()`: any integer in `0..255` (R170). -/
def State.drawByte (s : State) : Nat := s.nextDraw % 256

/-- `draw_word()`: any integer in `0..MAXV` (R170). -/
def State.drawWord (s : State) : Nat := s.nextDraw % 2 ^ s.mode.regBits

/-- `draw_below(b)` for `b >= 1`: any integer in `0..b-1` (R170). -/
def State.drawBelow (s : State) (b : Nat) : Nat := s.nextDraw % b

/-- `RND Vx, kk` (R171): a byte in every mode. -/
def execRnd (x : RegField) (kk : BitVec 8) (s : State) : Result :=
  .next (s.drawn.setV x (s.drawByte &&& imm8 kk))

/-- `RNDW Vx` (R172). -/
def execRndw (x : RegField) (s : State) : Result := .next (s.drawn.setV x s.drawWord)

/-- `RNDB Vx, Vy` (R173): a zero bound gives 0 and draws nothing. -/
def execRndb (x y : RegField) (s : State) : Result :=
  .next (if s.v y = 0 then s.setV x 0 else s.drawn.setV x (s.drawBelow (s.v y)))

end Sys2Proof.Machine
end

