-- ==== Sys2Proof/Machine/Timers.lean ====
section
/-!
DEFINITION. Machine/Timers.lean: the timer instructions (spec/46_timers.md, R155 to R157).
-/

namespace Sys2Proof.Machine

/-- `LD Vx, DT` (R155): zero-extended. -/
def execLdVxDt (x : RegField) (s : State) : Result := .next (s.setV x s.dt.toNat)

/-- `LD DT, Vx` (R156): the low 8 bits. -/
def execLdDtVx (x : RegField) (s : State) : Result := .next (s.setDt (BitVec.ofNat 8 (s.v x)))

/-- `LD ST, Vx` (R157): the low 8 bits. -/
def execLdStVx (x : RegField) (s : State) : Result := .next (s.setSt (BitVec.ofNat 8 (s.v x)))

end Sys2Proof.Machine
end

