-- ==== Sys2Proof/Machine/Fetch.lean ====
section
/-!
DEFINITION. Machine/Fetch.lean: the fetch and decode phases of a step (spec/30_encoding.md, R70, R71), and
the placing of one word where the next step fetches.
-/

namespace Sys2Proof.Machine

/-- The opcode at an address: two bytes, big-endian (R71; spec/20_memory.md, R52). -/
def State.opcodeAt (s : State) (a : Nat) : Opcode :=
  wordOfBytes (s.readByte a) (s.readByte (a + 1))

/-- Both opcode bytes lie in memory (R71; spec/20_memory.md, R58). -/
def State.canFetch (s : State) : Bool :=
  decide (s.pc.toNat + Const.opcodeBytes ≤ s.mode.memSize)

/-- The state after the fetch phase: `pc` past the opcode, and the status `ok` unless an error condition
is raised later in the step (R70, R71). -/
def State.advance (s : State) : State :=
  (s.setPc (s.pc + BitVec.ofNat 16 Const.opcodeBytes)).setStatus .ok

/-- The fetch and decode phases: the instruction and the state it executes in, or the state in which the
step ends with an error. The decode table is the configuration's (R79). A fetch fault leaves `pc` (R58); an `Unknown` opcode does not (R83). -/
def fetch (s : State) : Except State (Instr × State) :=
  if s.canFetch then
    match decodeWord s.cfg.table s.mode (s.opcodeAt s.pc.toNat) with
    | some i => .ok (i, s.advance)
    | none => .error (s.advance.raise (.unknownOpcode (s.opcodeAt s.pc.toNat) s.pc))
  else .error (s.raise (.memoryFault s.pc.toNat Const.opcodeBytes))

/-- The mode in which a word is to run: the current one where it decodes there, else the first wider one
in which it does (log 11). -/
def modeFor (t : List Row) (m : Mode) (op : Opcode) : Mode :=
  if (decodeWord t m op).isSome then m
  else if (decodeWord t .extended16 op).isSome then .extended16
  else if (decodeWord t .extended64 op).isSome then .extended64
  else m

/-- The address the next step fetches from in a mode: `pc`, or the origin when `pc` lies outside memory. -/
def State.fetchAddr (s : State) (m : Mode) : Nat :=
  if s.pc.toNat + Const.opcodeBytes ≤ m.memSize then s.pc.toNat else Const.origin

/-- A word placed where the next step fetches, with the mode that has its instruction selected (log 11). -/
def State.placeWord (s : State) (op : Opcode) : State :=
  let m := modeFor s.cfg.table s.mode op
  ((s.putMode m).setPcNat (s.fetchAddr m)).writeBytes (s.fetchAddr m) (wordBytes op)

end Sys2Proof.Machine
end

