-- ==== Sys2Proof/Machine/Step.lean ====
section
/-!
DEFINITION. Machine/Step.lean: one step (spec/30_encoding.md, R70).
-/

namespace Sys2Proof.Machine

/-- One fetch-decode-execute cycle: fetch and decode, then the instruction's meaning, or the end of the
step that the fetch or the decoder reports (R70). -/
def step (s : State) : Host.Outcome State Fault Refusal :=
  match fetch s with
  | .ok (i, t) => exec i t
  | .error t => .next t

/-- The word of an opcode-table row stored where `step` fetches its next instruction, so that the next
step runs it; it stands for the load of a one-word program (log 11). -/
def State.withFetchWord (s : State) (nbits w : Nat) : State := s.placeWord (tableWord nbits w)

end Sys2Proof.Machine
end

