-- ==== Sys2Proof/Machine/HostOps.lean ====
section
/-!
DEFINITION. Machine/HostOps.lean: the operations of the surrounding software (spec/00_scope.md, R8) other
than `step`, and the outputs it reads.
-/

namespace Sys2Proof.Machine

/-- A timer one tick later (spec/60_exceptions.md, R190, R191). -/
def tick (t : BitVec 8) : BitVec 8 := if 0 < t.toNat then t - 1 else t

/-- `tick_timers` (R190). -/
def State.tickTimers (s : State) : State := (s.setDt (tick s.dt)).setSt (tick s.st)

/-- `set_key(k, pressed)` (R195); the type of `k` excludes a key outside 0 to 15 (log 15). -/
def State.setKey (s : State) (k : Fin Const.nkeys) (pressed : Bool) : State :=
  s.setKeys (s.keys.set k.val pressed k.isLt)

/-- `ack_redraw` (R196). -/
def State.ackRedraw (s : State) : State := s.setRedraw false

/-- `set_effect(e)` (R199). -/
def State.setEffect (s : State) (e : Effect) : State := s.putEffect e

/-- The copy of the framebuffer's window into the effect buffer (R198). -/
def State.copyToEffect (s : State) : State :=
  s.setEb (s.fb.inside s.pixelCount ++ s.eb.outside s.pixelCount)

/-- One frame of the colour cycle (R198). -/
def State.cycleFrame (s : State) : State :=
  if s.effectFrames + 1 = Const.cycleFrames then
    s.setCycle 0 ((s.paletteIndex + 1) % s.cfg.paletteSize)
  else s.setCycle (s.effectFrames + 1) s.paletteIndex

/-- `process_graphics_effect` (R198). -/
def State.processGraphicsEffect (s : State) : State :=
  match s.effect with
  | .none => s.copyToEffect
  | .colorCycle => s.copyToEffect.cycleFrame

/-- `reset` (spec/70_reset_and_hazards.md, R210): every element of R44 at its reset value. The random
source is not reset (R44), the fault log is never cleared (R184), and the configuration is fixed (log 14). -/
def State.resetOp (s : State) : State :=
  ((State.resetWith s.cfg).setDraws s.draws).setFaultLog s.faultLog

/-- `load_program(bytes)` (R213); its result is the status output (R183). -/
def State.loadProgram (s : State) (bytes : List Byte) : State :=
  if bytes.length ≤ s.mode.memSize - Const.origin then
    (s.writeBytes Const.origin bytes).setStatus .ok
  else s.raise (.romTooLarge bytes.length)

/-- Every physical register masked to the width of a mode (R215). -/
def maskRegs (m : Mode) (r : Vector Cell64 Const.physRegs) : Vector Cell64 Const.physRegs :=
  r.map fun c => BitVec.ofNat 64 (c.toNat % 2 ^ m.regBits)

/-- `set_mode(m)` (R215). -/
def State.setMode (s : State) (m : Mode) : State :=
  if m = s.mode then s
  else ((((s.putMode m).setRegs (maskRegs m s.regs)).setFb []).setEb []).setRedraw true

/-! ## Outputs -/

/-- `sound_active`, the sound output (R192). -/
def State.soundActive (s : State) : Bool := decide (0 < s.st.toNat)

/-- `fb` as the renderer reads it: `DW*DH` entries, row-major (R196). -/
def State.framebuffer (s : State) : List Bool := (List.range s.pixelCount).map s.fb.on

/-- `eb` as the renderer reads it (R196). -/
def State.effectBuffer (s : State) : List Bool := (List.range s.pixelCount).map s.eb.on

end Sys2Proof.Machine
end

