-- ==== Sys2Proof/Machine/Operations.lean ====
section
/-!
DEFINITION. Machine/Operations.lean: the nine operations that change machine state (spec/00_scope.md, R8),
each atomic, and their sequences in any order: a claim about every list of operations is a claim about
every interleaving.
-/

namespace Sys2Proof.Machine

/-- The nine operations of R8. -/
inductive Operation where
  | step
  | tickTimers
  | processGraphicsEffect
  | setKey (k : Fin Const.nkeys) (pressed : Bool)
  | ackRedraw
  | setEffect (e : Effect)
  | reset
  | loadProgram (bytes : List Byte)
  | setMode (m : Mode)
deriving DecidableEq, Repr

/-- One operation. -/
def perform (o : Operation) (s : State) : Result :=
  match o with
  | .step => step s
  | .tickTimers => .next s.tickTimers
  | .processGraphicsEffect => .next s.processGraphicsEffect
  | .setKey k pressed => .next (s.setKey k pressed)
  | .ackRedraw => .next s.ackRedraw
  | .setEffect e => .next (s.setEffect e)
  | .reset => .next s.resetOp
  | .loadProgram bytes => .next (s.loadProgram bytes)
  | .setMode m => .next (s.setMode m)

/-- Operations one after the other, to the first that does not answer a next state. -/
def performAll : List Operation → State → Result
  | [], s => .next s
  | o :: os, s =>
    match perform o s with
    | .next t => performAll os t
    | .fault r => .fault r
    | .refused r => .refused r

end Sys2Proof.Machine
end

