-- ==== Sys2Proof/Safety.lean ====
section
/-!
DEFINITION. Safety.lean: the terms in which claims about runs are made: the invariant of the state
(spec/10_state.md, R43), a clean fault log (spec/60_exceptions.md, R184), the end of a run
(spec/70_reset_and_hazards.md, R217), and frames.
-/

namespace Sys2Proof.Machine

/-- Every physical register holds a value of the mode's width (R43(a), for all physical registers, as
`set_mode` leaves them). -/
def State.regsFit (s : State) : Prop :=
  ∀ i : Fin Const.physRegs, (s.regs[i.val]'i.isLt).toNat < 2 ^ s.mode.regBits

/-- The invariant: the memory and the pixel buffers in canonical form, and the bounds of R43 (a), (b),
(c) and (g); R43 (e) and (f) hold by the types of the fields. -/
structure State.Inv (s : State) : Prop where
  config : s.cfg.valid = true
  memory : Memory.wf s.cfg.font s.mem = true
  regs : s.regsFit
  stack : s.sp ≤ Const.stackDepth
  frame : Pixels.wf s.cfg.physPixels s.fb = true
  effect : Pixels.wf s.cfg.physPixels s.eb = true
  frames : s.effectFrames < Const.cycleFrames
  palette : s.paletteIndex < s.cfg.paletteSize

/-- No error condition has been reported (R184). -/
def State.clean (s : State) : Bool := s.faultLog.isEmpty

/-- The end of a run. DESIGN CHOICE: R217 leaves it to the model and gives as an instance a `JP` to its own
address, the customary end of a program (general knowledge); the model takes that instance (log 22). -/
def State.ended (s : State) : Bool :=
  s.canFetch &&
  decide (decodeWord s.cfg.table s.mode (s.opcodeAt s.pc.toNat) = some (.jp (s.pc.setWidth 12))) &&
  decide (s.pc.toNat < 2 ^ 12)

/-- The elements of the state, for frames. -/
inductive Part where
  | mem | regs | index | pc | stack | fb | eb | redraw | dt | st | keys | mode | effect | cycle
  | cfg | draws | report
deriving DecidableEq, Repr

/-- Two states agree on one element; memory byte by byte. -/
def Part.same (s t : State) : Part → Prop
  | .mem => ∀ a, t.readByte a = s.readByte a
  | .regs => t.regs = s.regs
  | .index => t.index = s.index
  | .pc => t.pc = s.pc
  | .stack => t.stack = s.stack ∧ t.sp = s.sp
  | .fb => t.fb = s.fb
  | .eb => t.eb = s.eb
  | .redraw => t.redraw = s.redraw
  | .dt => t.dt = s.dt
  | .st => t.st = s.st
  | .keys => t.keys = s.keys
  | .mode => t.mode = s.mode
  | .effect => t.effect = s.effect
  | .cycle => t.effectFrames = s.effectFrames ∧ t.paletteIndex = s.paletteIndex
  | .cfg => t.cfg = s.cfg
  | .draws => t.draws = s.draws
  | .report => t.status = s.status ∧ t.faultLog = s.faultLog

/-- Two states agree on every element that a list does not name. -/
def KeepsAllBut (ps : List Part) (s t : State) : Prop := ∀ p, p ∉ ps → p.same s t

/-- Two states agree on every physical register that a list does not name. -/
def KeepsRegsBut (rs : List (Fin Const.physRegs)) (s t : State) : Prop :=
  ∀ i : Fin Const.physRegs, i ∉ rs → t.regs[i.val]'i.isLt = s.regs[i.val]'i.isLt

/-- Two states agree on every byte outside the span of `len` bytes from `a` on. -/
def KeepsBytesOutside (a len : Nat) (s t : State) : Prop :=
  ∀ b, b < a ∨ a + len ≤ b → t.readByte b = s.readByte b

/-- An instruction completes: it answers a next state of which something holds. -/
def Completes (i : Instr) (s : State) (holds : State → Prop) : Prop :=
  ∃ t, exec i s = .next t ∧ holds t

/-- Nothing changes but some registers. -/
def OnlyRegs (rs : List (Fin Const.physRegs)) (s t : State) : Prop :=
  KeepsAllBut [.regs] s t ∧ KeepsRegsBut rs s t

/-- An error condition is reported and logged, and nothing else changes (R181). -/
def Reports (e : ErrorCond) (s t : State) : Prop :=
  t.status = .error e ∧ t.faultLog = e :: s.faultLog ∧ KeepsAllBut [.report] s t

/-- How many of the pixel calls turn the entry `j` over. -/
def State.hits (s : State) (dots : List Dot) (j : Nat) : Nat :=
  (dots.filter fun d => d.bit && decide (s.pixelIndex d.px d.py = j)).length

/-- Some pixel call turns a set entry off: one that was set before, or one that an earlier call set. -/
def State.collides (s : State) (dots : List Dot) : Prop :=
  ∃ j, 1 ≤ s.hits dots j ∧ (s.fb.on j = true ∨ 2 ≤ s.hits dots j)

/-- The effect of a drawing instruction (spec/44_display.md, R140, R141): every entry turned over once
for each call on it, the flags register 1 exactly when there was a collision, `redraw` set, and nothing
else changed. -/
def Drawn (dots : List Dot) (s t : State) : Prop :=
  (∀ j, t.fb.on j = (s.fb.on j != decide (s.hits dots j % 2 = 1))) ∧
  (s.collides dots → t.reg (flagReg s.mode) = 1) ∧
  (¬ s.collides dots → t.reg (flagReg s.mode) = 0) ∧
  t.redraw = true ∧
  KeepsAllBut [.fb, .regs, .redraw] s t ∧ KeepsRegsBut [flagReg s.mode] s t

/-- Another value in one physical register. -/
def State.poke (s : State) (j : Fin Const.physRegs) (c : Cell64) : State :=
  s.setRegs (s.regs.set j.val c j.isLt)

/-- Instructions executed one after the other without fetching. -/
def execAll : List Instr → State → Result
  | [], s => .next s
  | i :: is, s =>
    match exec i s with
    | .next t => execAll is t
    | .fault r => .fault r
    | .refused r => .refused r

end Sys2Proof.Machine

namespace Sys2Proof

/-- The display instructions (R142 to R147). -/
def Instr.isDisplay : Instr → Bool
  | .cls | .drw _ _ _ | .drw16 _ _ | .drw32 _ _ | .hline _ _ | .vline _ _ => true
  | _ => false

/-- The instructions that write memory (spec/20_memory.md, R56). -/
def Instr.storesToMemory : Instr → Bool
  | .ldB _ | .ldMemVx _ | .bcopy _ _ => true
  | _ => false

/-- The instructions that write `I` (spec/10_state.md, R27). -/
def Instr.writesIndex : Instr → Bool
  | .ldI _ | .addI _ | .ldF _ | .ldMemVx _ | .ldVxMem _ => true
  | _ => false

/-- The instructions that reach the stack (spec/20_memory.md, R50). -/
def Instr.usesStack : Instr → Bool
  | .call _ | .ret | .callp _ | .retv => true
  | _ => false

/-- The instructions that use the random source (R40). -/
def Instr.draws : Instr → Bool
  | .rnd _ _ | .rndw _ | .rndb _ _ => true
  | _ => false

end Sys2Proof
end

