-- ==== Sys2Proof/Certificates/Slice0/Obligations.lean ====
section
/-!
DEFINITION. Certificates/Slice0/Obligations.lean: the statements for the provers. `exec` is stated over the
state after the fetch phase, whose `pc` is the address of the instruction plus 2 (spec/30_encoding.md, R71);
`StepRunsTheDecodedInstruction` carries the statements about `exec` to a step.
-/

open Sys2Proof Sys2Proof.Machine

/-! ## Encoding -/

/-- Words written out from the patterns of spec/30_encoding.md, R80 and R81, on both sides of the mode
conditions. -/
def Obligations.SpecWordsDecode : Prop :=
  decodeWord tableR80 .legacy8 0xA234#16 = some (.ldI 0x234#12) ∧
  decodeWord tableR80 .legacy8 0x6005#16 = some (.ldImm 0#4 5#8) ∧
  decodeWord tableR80 .legacy8 0x8AB4#16 = some (.addReg 0xA#4 0xB#4) ∧
  decodeWord tableR80 .legacy8 0xD125#16 = some (.drw 1#4 2#4 5#4) ∧
  decodeWord tableR80 .legacy8 0xE3A1#16 = some (.sknp 3#4) ∧
  decodeWord tableR80 .legacy8 0xF70A#16 = some (.ldVxK 7#4) ∧
  decodeWord tableR80 .legacy8 0x8018#16 = none ∧
  decodeWord tableR80 .extended16 0x8018#16 = some (.mul 0#4 1#4) ∧
  decodeWord tableR80 .legacy8 0x0300#16 = none ∧
  decodeWord tableR80 .extended16 0x0300#16 = some (.callp 0x300#12) ∧
  decodeWord tableR80 .extended16 0x9AB2#16 = none ∧
  decodeWord tableR80 .extended64 0x9AB2#16 = some (.drw32 0xA#4 0xB#4) ∧
  decodeWord tableR80 .extended64 0x0000#16 = none

/-- Over every decode table that meets its constraint (in part the model's choice, log 21), the bytes of an
encoded well-formed instruction decode to it, with every operand, and to the bytes that follow. -/
def Obligations.DecodeOfEncodeIsTheInstruction : Prop :=
  ∀ (t : List Row) (m : Mode) (i : Instr) (rest : List Byte), tableOk t = true →
    i.wellFormed t m = true →
    ∃ w, encode t m i = some w ∧ decode t m (wordBytes w ++ rest) = .ok (i, rest)

/-- A decoded instruction is well-formed, over every decode table that meets its constraint (in part the
model's choice, log 21); over the table of R80 encoding it gives the word back, the ignored field `y` of `SHR`
and `SHL` as 0 (the model's choice, log 12). -/
def Obligations.EncodeOfDecodeIsTheWord : Prop :=
  (∀ (t : List Row) (m : Mode) (op : Opcode) (i : Instr), tableOk t = true →
    decodeWord t m op = some i → i.wellFormed t m = true) ∧
  ∀ (m : Mode) (op : Opcode) (i : Instr), decodeWord tableR80 m op = some i →
    encode tableR80 m i = some (match i with
      | .shr _ => op &&& 0xFF0F#16
      | .shl _ => op &&& 0xFF0F#16
      | _ => op)

/-- With the decode table of R80 the words that decode to `Unknown` are exactly those that
spec/30_encoding.md, R82, lists, in each mode. -/
def Obligations.UnknownOpcodesAreThoseOfTheTable : Prop :=
  ∀ (m : Mode) (op : Opcode), decodeWord tableR80 m op = none ↔
    (op.fam = 0x0#4 ∧ op ≠ 0x00E0#16 ∧ op ≠ 0x00EE#16 ∧
      (m ≠ .legacy8 → op ≠ 0x00EF#16 ∧ op.x = 0#4)) ∨
    (op.fam = 0x5#4 ∧ (if m = .legacy8 then 1 ≤ op.n.toNat else 6 ≤ op.n.toNat)) ∨
    (op.fam = 0x8#4 ∧ (op.n.toNat = 13 ∨ op.n.toNat = 15 ∨
      (m = .legacy8 ∧ 8 ≤ op.n.toNat ∧ op.n.toNat ≤ 12))) ∨
    (op.fam = 0x9#4 ∧ (match m with
      | .legacy8 => 1 ≤ op.n.toNat
      | .extended16 => op.n.toNat = 2 ∨ 5 ≤ op.n.toNat
      | .extended64 => 5 ≤ op.n.toNat)) ∨
    (op.fam = 0xE#4 ∧ op.kk ∉ [0x9E#8, 0xA1#8]) ∨
    (op.fam = 0xF#4 ∧
      op.kk ∉ [0x07#8, 0x0A#8, 0x15#8, 0x18#8, 0x1E#8, 0x29#8, 0x33#8, 0x55#8, 0x65#8] ∧
      (m ≠ .legacy8 → op.kk ≠ 0x01#8))

/-! ## The step -/

/-- When both opcode bytes lie in memory and decode, by the configured decode table (R7, R79), to an
instruction, the step is that instruction's meaning on the state with `pc` past the word and the status
`ok` (R70, R71). -/
def Obligations.StepRunsTheDecodedInstruction : Prop :=
  ∀ (s : State) (i : Instr), s.pc.toNat + 2 ≤ s.mode.memSize →
    decodeWord s.cfg.table s.mode (s.readByte s.pc.toNat ++ s.readByte (s.pc.toNat + 1)) = some i →
    step s = exec i { s with pc := s.pc + 2, status := .ok }

/-- An `Unknown` opcode is reported with the word and its address, `pc` moves past it, and nothing else
changes (R83). -/
def Obligations.UnknownOpcodeIsReportedAndSkipped : Prop :=
  ∀ s : State, s.pc.toNat + 2 ≤ s.mode.memSize →
    decodeWord s.cfg.table s.mode (s.readByte s.pc.toNat ++ s.readByte (s.pc.toNat + 1)) = none →
    ∃ t, step s = .next t ∧ t.pc = s.pc + 2 ∧
      t.status = .error (.unknownOpcode (s.readByte s.pc.toNat ++ s.readByte (s.pc.toNat + 1)) s.pc) ∧
      t.faultLog = .unknownOpcode (s.readByte s.pc.toNat ++ s.readByte (s.pc.toNat + 1)) s.pc :: s.faultLog ∧
      KeepsAllBut [.pc, .report] s t

/-- A fetch outside memory reports `MemoryFault(pc, 2)`, changes nothing, not even `pc`, and a further step
repeats the fault (R58, the spec's decision D5). -/
def Obligations.FetchOutsideMemoryRepeatsItsFault : Prop :=
  ∀ s : State, s.mode.memSize < s.pc.toNat + 2 →
    ∃ t u, step s = .next t ∧ Reports (.memoryFault s.pc.toNat 2) s t ∧
      step t = .next u ∧ Reports (.memoryFault s.pc.toNat 2) t u

/-- Every step answers a next state: the hardware has no halted state (R217). -/
def Obligations.EveryStepAnswersNextState : Prop := ∀ s : State, ∃ t, step s = .next t

/-- A step reports at most one error condition (R186), and its status says which: `ok` and the fault log as
it was, or one error and that error in front of the log. -/
def Obligations.StepReportsAtMostOneError : Prop :=
  ∀ s t : State, step s = .next t →
    (t.status = .ok ∧ t.faultLog = s.faultLog) ∨
    ∃ e, t.status = .error e ∧ t.faultLog = e :: s.faultLog

/-- A step that reports an error changes nothing else but `pc`, which is past the instruction, or where it
was when the fetch itself failed (R181). -/
def Obligations.ErrorStepIsANoOp : Prop :=
  ∀ (s t : State) (e : ErrorCond), step s = .next t → t.status = .error e →
    KeepsAllBut [.pc, .report] s t ∧
    t.pc = (if s.pc.toNat + 2 ≤ s.mode.memSize then s.pc + 2 else s.pc)

/-- Every instruction that reads or writes memory through `I` reports a failed span check, with the first
address and the length of the span, and changes nothing else; `BCOPY` checks its source first (R57, R135;
the spec's decision D4). -/
def Obligations.FailedSpanCheckOnlyReports : Prop :=
  ∀ (s : State) (x y : RegField) (n : BitVec 4),
    (0 < n.toNat → s.mode.memSize < s.index.toNat + n.toNat →
      Completes (.drw x y n) s (Reports (.memoryFault s.index.toNat n.toNat) s)) ∧
    (s.mode.memSize < s.index.toNat + 32 →
      Completes (.drw16 x y) s (Reports (.memoryFault s.index.toNat 32) s)) ∧
    (s.mode.memSize < s.index.toNat + 128 →
      Completes (.drw32 x y) s (Reports (.memoryFault s.index.toNat 128) s)) ∧
    (s.mode.memSize < s.index.toNat + s.mode.digits →
      Completes (.ldB x) s (Reports (.memoryFault s.index.toNat s.mode.digits) s)) ∧
    (s.mode.memSize < s.index.toNat + (x.toNat + 1) * s.mode.regBytes →
      Completes (.ldMemVx x) s
        (Reports (.memoryFault s.index.toNat ((x.toNat + 1) * s.mode.regBytes)) s) ∧
      Completes (.ldVxMem x) s
        (Reports (.memoryFault s.index.toNat ((x.toNat + 1) * s.mode.regBytes)) s)) ∧
    (0 < s.v y → s.mode.memSize < s.index.toNat + s.v y →
      Completes (.bcopy x y) s (Reports (.memoryFault s.index.toNat (s.v y)) s)) ∧
    (0 < s.v y → s.index.toNat + s.v y ≤ s.mode.memSize →
      s.mode.memSize < (s.index.toNat + s.v x) % 65536 + s.v y →
      Completes (.bcopy x y) s
        (Reports (.memoryFault ((s.index.toNat + s.v x) % 65536) (s.v y)) s)) ∧
    (0 < min (s.v y) s.cfg.searchWindowMax →
      s.mode.memSize < s.index.toNat + min (s.v y) s.cfg.searchWindowMax * s.mode.regBytes →
      Completes (.bsrch x y) s (Reports
        (.memoryFault s.index.toNat (min (s.v y) s.cfg.searchWindowMax * s.mode.regBytes)) s))

/-! ## Whole-machine rules -/

/-- No instruction changes the mode, the keys, the effect state or the effect buffer (R33, R36 to R38), nor
the configuration: its parameters are no state (R45), and that they are a field of the state that no
operation writes is the model's choice (log 3). -/
def Obligations.NoInstructionTouchesHostState : Prop :=
  ∀ (i : Instr) (s t : State), exec i s = .next t →
    t.mode = s.mode ∧ t.keys = s.keys ∧ t.effect = s.effect ∧ t.effectFrames = s.effectFrames ∧
    t.paletteIndex = s.paletteIndex ∧ t.eb = s.eb ∧ t.cfg = s.cfg

/-- The framebuffer and the redraw flag are changed by display instructions only (R32, R34), memory by `LD B`,
`LD [I], Vx` and `BCOPY` only (spec/20_memory.md, R56), `I` by the five instructions of R27 only, the stack by
the four call and return instructions only (R50), the delay timer by `LD DT, Vx` and the sound timer by `LD
ST, Vx` only (R35), and the random source is used by the three random instructions only (R40); the counter
`draws`, in which that last clause is said, is the model's choice (log 6). The writers of `pc` and of the
registers are in the statements of the instructions. -/
def Obligations.FramebufferMemoryIndexStackTimersAndDrawsHaveTheirWriters : Prop :=
  ∀ (i : Instr) (s t : State), exec i s = .next t →
    (i.isDisplay = false → t.fb = s.fb ∧ t.redraw = s.redraw) ∧
    (i.storesToMemory = false → t.mem = s.mem) ∧
    (i.writesIndex = false → t.index = s.index) ∧
    (i.usesStack = false → t.stack = s.stack ∧ t.sp = s.sp) ∧
    ((∀ x, i ≠ .ldDtVx x) → t.dt = s.dt) ∧
    ((∀ x, i ≠ .ldStVx x) → t.st = s.st) ∧
    (i.draws = false → t.draws = s.draws)

/-- Registers 17 to 30 are written by no instruction, register 16 only by `VADD` on the pair of register
15, in `Extended64`, and register 31 only in `Extended64`, as the flags register (R26, the spec's decision
D37). The reads are those of `UpperRegistersAreReadAsPairPartnerOnly`. -/
def Obligations.UpperRegistersAreWrittenAsPairPartnerOrFlagOnly : Prop :=
  ∀ (i : Instr) (s t : State) (j : Fin Const.physRegs), exec i s = .next t → 16 ≤ j.val →
    t.regs[j.val]'j.isLt ≠ s.regs[j.val]'j.isLt →
    s.mode = .extended64 ∧ ((j.val = 16 ∧ ∃ y, i = .vadd 15#4 y) ∨ j.val = 31)

/-! ## Invariants -/

/-- The invariant holds right after reset: the bounds of R43 on the values of R44 (R43(a) for all physical
registers by inference, log 8), and the canonical form of memory and pixel buffers, which is the model's
choice (log 7, log 10). It holds for every configuration that meets the constraints of R7 (a field by the
model's choice, log 3; for the decode table also by log 21); the configuration of `State.reset`, also the
model's choice (log 3), meets them. -/
def Obligations.InvariantHoldsAtReset : Prop :=
  (∀ c : Config, c.valid = true → (State.resetWith c).Inv) ∧ State.reset.Inv

/-- Every step keeps the invariant: every register within the mode's width (R43(a); for all physical registers
by inference, log 8), `sp` at most 16, the effect counters within their bounds (R43), the configuration within
its constraints (R7; a field by the model's choice, log 3; for the decode table also by log 21), memory and
pixel buffers in the canonical form, which is the model's choice (log 7, log 10). -/
def Obligations.StepKeepsInvariant : Prop :=
  ∀ s t : State, s.Inv → step s = .next t → t.Inv

/-- Every interleaving of the nine operations (R8; a list of operations by the model's choice, log 13) keeps
the invariant: every register within the mode's width (R43(a); for all physical registers by inference, log
8), `sp` at most 16, the effect counters within their bounds (R43), the configuration within its constraints
(R7; a field by the model's choice, log 3; for the decode table also by log 21), memory and pixel buffers in
the canonical form, which is the model's choice (log 7, log 10). -/
def Obligations.EveryInterleavingKeepsInvariant : Prop :=
  ∀ (os : List Operation) (s t : State), s.Inv → performAll os s = .next t → t.Inv

/-- Every interleaving of the nine operations (a list of them by the model's choice, log 13) answers a next
state, never takes an entry out of the fault log and never changes the configuration. R184 says that no later
step clears the log; that `reset` keeps it too is the model's choice (log 14), and that the parameters of R7
are a field of the state that no operation writes is the model's choice (log 3). -/
def Obligations.EveryInterleavingKeepsTheFaultLog : Prop :=
  ∀ (os : List Operation) (s : State), ∃ t, performAll os s = .next t ∧
    s.faultLog <:+ t.faultLog ∧ t.cfg = s.cfg

/-! ## Control flow -/

/-- `JP nnn` sets `pc` to the literal (R100); `JP V0, nnn` adds register 0 modulo `2^16` (R107, the spec's
decision D30); nothing else changes. -/
def Obligations.JumpsSetPc : Prop :=
  ∀ (s : State) (nnn : BitVec 12),
    Completes (.jp nnn) s (fun t => t.pc.toNat = nnn.toNat ∧ KeepsAllBut [.pc] s t) ∧
    Completes (.jpV0 nnn) s (fun t =>
      t.pc.toNat = (nnn.toNat + s.reg 0) % 65536 ∧ KeepsAllBut [.pc] s t)

/-- `CALL nnn` (R101): with a free slot it pushes the address of the next instruction, zero-extended, and
jumps; on a full stack it reports `StackOverflow` with its own address and changes nothing else. With the
decode table of R80 its word is `2nnn` in every mode. -/
def Obligations.CallPushesReturnAddressOrReports : Prop :=
  ∀ (s : State) (nnn : BitVec 12),
    (∀ m : Mode, decodeWord tableR80 m (0x2#4 ++ nnn) = some (.call nnn)) ∧
    (s.sp < 16 → Completes (.call nnn) s fun t =>
      t.slot s.sp = s.pc.setWidth 64 ∧ t.sp = s.sp + 1 ∧ (∀ k, k ≠ s.sp → t.slot k = s.slot k) ∧
      t.pc.toNat = nnn.toNat ∧ KeepsAllBut [.pc, .stack] s t) ∧
    (s.sp = 16 → Completes (.call nnn) s (Reports (.stackOverflow (s.pc - 2)) s))

/-- `RET` (R102): with an occupied slot `pc` takes the low 16 bits of the top slot, which keeps its
contents; on an empty stack it reports `StackUnderflow` with its own address and changes nothing else. -/
def Obligations.ReturnPopsPcOrReports : Prop :=
  ∀ s : State,
    (0 < s.sp → Completes .ret s fun t =>
      t.pc.toNat = (s.slot (s.sp - 1)).toNat % 65536 ∧ t.sp = s.sp - 1 ∧ t.stack = s.stack ∧
      KeepsAllBut [.pc, .stack] s t) ∧
    (s.sp = 0 → Completes .ret s (Reports (.stackUnderflow (s.pc - 2)) s))

/-- Nested calls followed by as many returns restore `pc` and `sp`, for any number of calls that the stack
has room for, whatever their targets (R102). -/
def Obligations.NestedCallsThenReturnsRestorePc : Prop :=
  ∀ (targets : List (BitVec 12)) (s : State), s.sp + targets.length ≤ 16 →
    ∃ t, execAll (targets.map Instr.call ++ List.replicate targets.length Instr.ret) s = .next t ∧
      t.pc = s.pc ∧ t.sp = s.sp ∧ (∀ k, k < s.sp → t.slot k = s.slot k) ∧
      KeepsAllBut [.stack] s t

/-- The four skips add 2 to the advanced `pc` exactly when their comparison of whole registers holds, and
change nothing else (R103 to R106; the zero-extension of the literal is the spec's decision D36). -/
def Obligations.SkipsCompareWholeRegisters : Prop :=
  ∀ (s : State) (x y : RegField) (kk : BitVec 8),
    Completes (.seImm x kk) s (fun t =>
      t.pc = (if s.v x = kk.toNat then s.pc + 2 else s.pc) ∧ KeepsAllBut [.pc] s t) ∧
    Completes (.sneImm x kk) s (fun t =>
      t.pc = (if s.v x = kk.toNat then s.pc else s.pc + 2) ∧ KeepsAllBut [.pc] s t) ∧
    Completes (.seReg x y) s (fun t =>
      t.pc = (if s.v x = s.v y then s.pc + 2 else s.pc) ∧ KeepsAllBut [.pc] s t) ∧
    Completes (.sneReg x y) s (fun t =>
      t.pc = (if s.v x = s.v y then s.pc else s.pc + 2) ∧ KeepsAllBut [.pc] s t)

/-! ## Immediate and arithmetic -/

/-- `ADD Vx, kk` wraps within the mode's width and writes no flag, also when it wraps (R111); `LD Vx, Vy`
copies (R112); only the destination register changes. With
the decode table of R80 their words are `7xkk` and `8xy0` in every mode. -/
def Obligations.LoadsAndAddImmediateWriteOneRegister : Prop :=
  ∀ (s : State) (x y : RegField) (kk : BitVec 8),
    (∀ m : Mode, decodeWord tableR80 m (0x7#4 ++ x ++ kk) = some (.addImm x kk) ∧
      decodeWord tableR80 m (0x8#4 ++ x ++ y ++ 0#4) = some (.ldReg x y)) ∧
    Completes (.addImm x kk) s (fun t =>
      t.v x = (s.v x + kk.toNat) % 2 ^ s.mode.regBits ∧ OnlyRegs [fieldReg x] s t) ∧
    Completes (.ldReg x y) s (fun t => t.v x = s.v y ∧ OnlyRegs [fieldReg x] s t)

/-- `LD Vx, kk` loads the zero-extended literal, whatever the register held, and changes no other register
(R110, the spec's decision D36). -/
def Obligations.LoadImmediateZeroExtends : Prop :=
  ∀ (s : State) (x : RegField) (kk : BitVec 8),
    Completes (.ldImm x kk) s (fun t => t.v x = kk.toNat ∧ OnlyRegs [fieldReg x] s t)

/-- `OR`, `AND` and `XOR` act on every bit of the destination register and write no flag (R113 to R115, the
spec's decision D9). -/
def Obligations.BitwiseOperationsActBitByBit : Prop :=
  ∀ (s : State) (x y : RegField),
    Completes (.orReg x y) s (fun t =>
      (∀ k, (t.v x).testBit k = ((s.v x).testBit k || (s.v y).testBit k)) ∧
      OnlyRegs [fieldReg x] s t) ∧
    Completes (.andReg x y) s (fun t =>
      (∀ k, (t.v x).testBit k = ((s.v x).testBit k && (s.v y).testBit k)) ∧
      OnlyRegs [fieldReg x] s t) ∧
    Completes (.xorReg x y) s (fun t =>
      (∀ k, (t.v x).testBit k = ((s.v x).testBit k != (s.v y).testBit k)) ∧
      OnlyRegs [fieldReg x] s t)

/-- `ADD Vx, Vy` (R116): the flags register holds the carry, also when it is the destination (R25, the
spec's decision D8); any other destination holds the sum modulo `2^W`. -/
def Obligations.AddWritesSumThenCarry : Prop :=
  ∀ (s : State) (x y : RegField), Completes (.addReg x y) s fun t =>
    t.reg (flagReg s.mode) = (if s.mode.maxValue < s.v x + s.v y then 1 else 0) ∧
    (fieldReg x ≠ flagReg s.mode → t.v x = (s.v x + s.v y) % 2 ^ s.mode.regBits) ∧
    OnlyRegs [fieldReg x, flagReg s.mode] s t

/-- `SUB` and `SUBN` (R117, R119; `>=` is the spec's decision D6): the difference modulo `2^W` and the
not-borrow flag. -/
def Obligations.SubtractionsWriteDifferenceThenNotBorrow : Prop :=
  ∀ (s : State) (x y : RegField),
    Completes (.sub x y) s (fun t =>
      t.reg (flagReg s.mode) = (if s.v y ≤ s.v x then 1 else 0) ∧
      (fieldReg x ≠ flagReg s.mode → t.v x =
        if s.v y ≤ s.v x then s.v x - s.v y else s.v x + 2 ^ s.mode.regBits - s.v y) ∧
      OnlyRegs [fieldReg x, flagReg s.mode] s t) ∧
    Completes (.subn x y) s (fun t =>
      t.reg (flagReg s.mode) = (if s.v x ≤ s.v y then 1 else 0) ∧
      (fieldReg x ≠ flagReg s.mode → t.v x =
        if s.v x ≤ s.v y then s.v y - s.v x else s.v y + 2 ^ s.mode.regBits - s.v x) ∧
      OnlyRegs [fieldReg x, flagReg s.mode] s t)

/-- `SHR` and `SHL` (R118, R120; `V[x]` in place is the spec's decision D7): shift by one, the bit shifted
out in the flags register. -/
def Obligations.ShiftsWriteResultThenLostBit : Prop :=
  ∀ (s : State) (x : RegField),
    Completes (.shr x) s (fun t =>
      t.reg (flagReg s.mode) = (if (s.v x).testBit 0 then 1 else 0) ∧
      (fieldReg x ≠ flagReg s.mode → ∀ k, (t.v x).testBit k = (s.v x).testBit (k + 1)) ∧
      OnlyRegs [fieldReg x, flagReg s.mode] s t) ∧
    Completes (.shl x) s (fun t =>
      t.reg (flagReg s.mode) = (if (s.v x).testBit (s.mode.regBits - 1) then 1 else 0) ∧
      (fieldReg x ≠ flagReg s.mode → t.v x = (2 * s.v x) % 2 ^ s.mode.regBits) ∧
      OnlyRegs [fieldReg x, flagReg s.mode] s t)

/-! ## Extended math -/

/-- `MUL` (R125, the spec's decision D26): the product modulo `2^W`, the flag 1 exactly when the product
exceeds `MAXV`. -/
def Obligations.MultiplyWritesProductThenOverflow : Prop :=
  ∀ (s : State) (x y : RegField), Completes (.mul x y) s fun t =>
    t.reg (flagReg s.mode) = (if s.mode.maxValue < s.v x * s.v y then 1 else 0) ∧
    (fieldReg x ≠ flagReg s.mode → t.v x = (s.v x * s.v y) % 2 ^ s.mode.regBits) ∧
    OnlyRegs [fieldReg x, flagReg s.mode] s t

/-- `DIV` (R126, R132): `a = b * q + r` with `r < b` for a nonzero divisor, `r` in the flags register and `q`
in any other destination; a zero divisor gives `MAXV` and 0 and no error. -/
def Obligations.DivideWritesQuotientThenRemainder : Prop :=
  ∀ (s : State) (x y : RegField), Completes (.div x y) s fun t =>
    (0 < s.v y → t.reg (flagReg s.mode) < s.v y ∧ t.reg (flagReg s.mode) = s.v x % s.v y ∧
      (fieldReg x ≠ flagReg s.mode → s.v x = s.v y * t.v x + t.reg (flagReg s.mode))) ∧
    (s.v y = 0 → t.reg (flagReg s.mode) = 0 ∧
      (fieldReg x ≠ flagReg s.mode → t.v x = s.mode.maxValue)) ∧
    OnlyRegs [fieldReg x, flagReg s.mode] s t

/-- `VADD` (R127, the spec's decision D24): the two lanes of the pair `x` are added to those of the pair `y`,
each modulo `2^W`, from the values before the instruction; no flag is written. -/
def Obligations.VectorAddWritesBothLanes : Prop :=
  ∀ (s : State) (x y : RegField), Completes (.vadd x y) s fun t =>
    t.v x = (s.v x + s.v y) % 2 ^ s.mode.regBits ∧
    t.v1 x = (s.v1 x + s.v1 y) % 2 ^ s.mode.regBits ∧
    (s.pairReg x).val = (x.toNat + 1) % s.mode.regCount ∧
    OnlyRegs [fieldReg x, s.pairReg x] s t

/-- `DOT` (R128, the spec's decision D24): the low `W` bits of the sum of the lane products in the
destination, the next `W` bits in the flags register, bit `2W` dropped. -/
def Obligations.DotProductWritesLowThenHighHalf : Prop :=
  ∀ (s : State) (x y : RegField), Completes (.dot x y) s fun t =>
    (fieldReg x ≠ flagReg s.mode →
      t.v x + 2 ^ s.mode.regBits * t.reg (flagReg s.mode) =
        (s.v x * s.v y + s.v1 x * s.v1 y) % 2 ^ (2 * s.mode.regBits)) ∧
    t.reg (flagReg s.mode) =
      (s.v x * s.v y + s.v1 x * s.v1 y) / 2 ^ s.mode.regBits % 2 ^ s.mode.regBits ∧
    OnlyRegs [fieldReg x, flagReg s.mode] s t

/-- `ROR` and `ROL` (R129, R130; the spec's decision D25): bit `k` of the result is the bit that stood `r`
places above, or below, in the circle of `W` bits, `r` the amount modulo `W`; no flag is written. -/
def Obligations.RotatesMoveEveryBitAround : Prop :=
  ∀ (s : State) (x y : RegField),
    Completes (.ror x y) s (fun t =>
      (∀ k, k < s.mode.regBits → (t.v x).testBit k =
        (s.v x).testBit ((k + s.v y) % s.mode.regBits)) ∧
      OnlyRegs [fieldReg x] s t) ∧
    Completes (.rol x y) s (fun t =>
      (∀ k, k < s.mode.regBits → (t.v x).testBit ((k + s.v y) % s.mode.regBits) =
        (s.v x).testBit k) ∧
      OnlyRegs [fieldReg x] s t)

/-- `POPCNT` (R131, the spec's decision D25): the number of 1 bits of the source register; no flag is
written. -/
def Obligations.PopulationCountSumsTheBits : Prop :=
  ∀ (s : State) (x y : RegField), Completes (.popcnt x y) s fun t =>
    t.v x = (Finset.range s.mode.regBits).sum (fun k => if (s.v y).testBit k then 1 else 0) ∧
    t.v x ≤ s.mode.regBits ∧ OnlyRegs [fieldReg x] s t

/-! ## Memory block -/

/-- `BCOPY` (R135, the spec's decision D23): with both spans in memory every destination byte receives the
value its source byte had before the instruction, whatever the overlap, and nothing else changes. -/
def Obligations.BlockCopyBehavesLikeMemmove : Prop :=
  ∀ (s : State) (x y : RegField),
    (s.v y = 0 ∨ (s.index.toNat + s.v y ≤ s.mode.memSize ∧
      (s.index.toNat + s.v x) % 65536 + s.v y ≤ s.mode.memSize)) →
    Completes (.bcopy x y) s fun t =>
      (∀ k, k < s.v y → t.readByte ((s.index.toNat + s.v x) % 65536 + k) =
        s.readByte (s.index.toNat + k)) ∧
      KeepsBytesOutside ((s.index.toNat + s.v x) % 65536) (s.v y) s t ∧ KeepsAllBut [.mem] s t

/-- `BSRCH` (R136, the spec's decision D22): with the window in memory the flags register receives the
offset of the first value unit that equals the needle, or `MAXV` when none does; in a machine that meets
R7, in the extended modes, a found offset is never `MAXV`. Units are `B` bytes, big-endian. -/
def Obligations.BlockSearchReportsFirstMatch : Prop :=
  ∀ (s : State) (x y : RegField) (c : Nat), c = min (s.v y) s.cfg.searchWindowMax →
    (c = 0 ∨ s.index.toNat + c * s.mode.regBytes ≤ s.mode.memSize) →
    Completes (.bsrch x y) s fun t =>
      (∀ r, r < c → s.memRead (s.index.toNat + r * s.mode.regBytes) s.mode.regBytes = s.v x →
        (∀ k, k < r → s.memRead (s.index.toNat + k * s.mode.regBytes) s.mode.regBytes ≠ s.v x) →
        t.reg (flagReg s.mode) = r ∧
        (s.cfg.valid = true → s.mode ≠ .legacy8 → r ≠ s.mode.maxValue)) ∧
      ((∀ k, k < c → s.memRead (s.index.toNat + k * s.mode.regBytes) s.mode.regBytes ≠ s.v x) →
        t.reg (flagReg s.mode) = s.mode.maxValue) ∧
      OnlyRegs [flagReg s.mode] s t

/-! ## Display -/

/-- `CLS` (R142): every pixel of the display is 0, `redraw` is set, and nothing else changes, also not the
storage outside the display of the mode (R39). Its word is `00E0` in every mode. -/
def Obligations.ClearScreenClearsEveryPixel : Prop :=
  (∀ m : Mode, decodeWord tableR80 m 0x00E0#16 = some .cls) ∧
  ∀ s : State, Completes .cls s fun t =>
    (∀ j, j < s.dw * s.dh → t.fb.on j = false) ∧ (∀ j, s.dw * s.dh ≤ j → t.fb.on j = s.fb.on j) ∧
    t.redraw = true ∧ KeepsAllBut [.fb, .redraw] s t

/-- The five drawing instructions (R140, R141, R143 to R147) turn every entry over once for each of their
pixel calls on it, set the flags register exactly when a set pixel was turned off, set `redraw`, and change
nothing else. -/
def Obligations.DrawingTurnsPixelsOver : Prop :=
  ∀ (s : State) (x y : RegField) (n : BitVec 4),
    (n.toNat = 0 ∨ s.index.toNat + n.toNat ≤ s.mode.memSize →
      Completes (.drw x y n) s (Drawn (s.spriteDots x y n.toNat 1) s)) ∧
    (s.index.toNat + 32 ≤ s.mode.memSize →
      Completes (.drw16 x y) s (Drawn (s.spriteDots x y 16 2) s)) ∧
    (s.index.toNat + 128 ≤ s.mode.memSize →
      Completes (.drw32 x y) s (Drawn (s.spriteDots x y 32 4) s)) ∧
    Completes (.hline x y) s (Drawn (s.hlineDots x y) s) ∧
    Completes (.vline x y) s (Drawn (s.vlineDots x y) s)

/-- The pixel calls of the drawing instructions: a sprite of `rows` rows of `bpr` bytes at `I`, bit 7 of a
byte leftmost (R143 to R145); a line of at most `W` pixels from register 0, bit `W-1` first, clamped to the
remaining width or height (R146, R147). Each call is made once. A call addresses the entry of its
coordinates modulo the display dimensions (R141, R32), which is one of the display's (R43(d), R148). -/
def Obligations.PixelCallsAreThoseOfTheRules : Prop :=
  ∀ (s : State) (x y : RegField) (rows bpr : Nat) (d : Dot),
    (d ∈ s.spriteDots x y rows bpr ↔ ∃ r k col, r < rows ∧ k < bpr ∧ col < 8 ∧
      d = ⟨s.v x % s.dw + 8 * k + col, s.v y % s.dh + r,
        (s.readByte (s.index.toNat + bpr * r + k)).getLsbD (7 - col)⟩) ∧
    (d ∈ s.hlineDots x y ↔ ∃ k, k < s.mode.regBits ∧ s.v x % s.dw + k < s.dw ∧
      d = ⟨s.v x % s.dw + k, s.v y % s.dh, (s.reg 0).testBit (s.mode.regBits - 1 - k)⟩) ∧
    (d ∈ s.vlineDots x y ↔ ∃ k, k < s.mode.regBits ∧ s.v y % s.dh + k < s.dh ∧
      d = ⟨s.v x % s.dw, s.v y % s.dh + k, (s.reg 0).testBit (s.mode.regBits - 1 - k)⟩) ∧
    (s.spriteDots x y rows bpr).Nodup ∧ (s.hlineDots x y).Nodup ∧ (s.vlineDots x y).Nodup ∧
    s.pixelIndex d.px d.py = (d.py % s.dh) * s.dw + d.px % s.dw ∧
    (0 < s.dw → 0 < s.dh → s.pixelIndex d.px d.py < s.dw * s.dh)

/-- Drawing the same sprite or line twice at the same position leaves every pixel as it was (R143): the second
drawing finds the position registers as the first one did, also where one of them is the flags register. -/
def Obligations.DrawingTwiceRestoresThePixels : Prop :=
  ∀ (s t u : State) (x y : RegField) (i : Instr),
    ((∃ n, i = .drw x y n) ∨ i = .drw16 x y ∨ i = .drw32 x y ∨ i = .hline x y ∨ i = .vline x y) →
    exec i s = .next t → t.v x = s.v x → t.v y = s.v y → exec i t = .next u →
    ∀ j, u.fb.on j = s.fb.on j

/-! ## Input and timers -/

/-- `SKP` and `SKNP` skip when the key that the low four bits of the register name is down, or up (R150 to
R152, the spec's decision D18). -/
def Obligations.KeySkipsTestTheKey : Prop :=
  ∀ (s : State) (x : RegField) (k : Fin Const.nkeys), k.val = s.v x % 16 →
    Completes (.skp x) s (fun t =>
      t.pc = (if s.keyDown k then s.pc + 2 else s.pc) ∧ KeepsAllBut [.pc] s t) ∧
    Completes (.sknp x) s (fun t =>
      t.pc = (if s.keyDown k then s.pc else s.pc + 2) ∧ KeepsAllBut [.pc] s t)

/-- `LD Vx, K` (R153, the spec's decision D19): it stores the least key that is down; with no key down it
moves `pc` back to its own address and changes nothing else. -/
def Obligations.KeyWaitStoresLeastKeyOrRewinds : Prop :=
  ∀ (s : State) (x : RegField),
    (∀ k : Fin Const.nkeys, s.keyDown k = true → (∀ j, j < k → s.keyDown j = false) →
      Completes (.ldVxK x) s fun t => t.v x = k.val ∧ OnlyRegs [fieldReg x] s t) ∧
    ((∀ k, s.keyDown k = false) →
      Completes (.ldVxK x) s fun t => t.pc = s.pc - 2 ∧ KeepsAllBut [.pc] s t)

/-- The timer instructions (R155 to R157, the spec's decision D20): the delay timer is read zero-extended,
and either timer takes the low 8 bits of the register. -/
def Obligations.TimerInstructionsMoveEightBits : Prop :=
  ∀ (s : State) (x : RegField),
    Completes (.ldVxDt x) s (fun t => t.v x = s.dt.toNat ∧ OnlyRegs [fieldReg x] s t) ∧
    Completes (.ldDtVx x) s (fun t => t.dt.toNat = s.v x % 256 ∧ KeepsAllBut [.dt] s t) ∧
    Completes (.ldStVx x) s (fun t => t.st.toNat = s.v x % 256 ∧ KeepsAllBut [.st] s t)

/-! ## Index, font, BCD, bulk transfer -/

/-- `LD I, nnn` (R160), `ADD I, Vx` modulo `2^16` without a flag (R161, the spec's decision D30) and `LD F,
Vx` (R162): five bytes a glyph up to 15, the policy's address above; only `I` changes. -/
def Obligations.IndexInstructionsWriteOnlyTheIndex : Prop :=
  ∀ (s : State) (x : RegField) (nnn : BitVec 12),
    Completes (.ldI nnn) s (fun t => t.index.toNat = nnn.toNat ∧ KeepsAllBut [.index] s t) ∧
    Completes (.addI x) s (fun t =>
      t.index.toNat = (s.index.toNat + s.v x) % 65536 ∧ KeepsAllBut [.index] s t) ∧
    Completes (.ldF x) s (fun t =>
      (s.v x ≤ 15 → t.index.toNat = 5 * s.v x) ∧
      (15 < s.v x → t.index = s.cfg.fontPolicy.address (s.v x)) ∧
      (15 < s.v x → s.cfg.fontPolicy = .fallbackF → t.index = 0x4B#16) ∧
      KeepsAllBut [.index] s t)

/-- `LD B, Vx` (R163): with the digits in memory, byte `k` is the decimal digit of weight
`10^(DIGITS-1-k)`, and the digits read most significant first give the value back; `I` is unchanged. -/
def Obligations.BcdStoreWritesTheDigits : Prop :=
  ∀ (s : State) (x : RegField), s.index.toNat + s.mode.digits ≤ s.mode.memSize →
    Completes (.ldB x) s fun t =>
      (∀ k, k < s.mode.digits → (t.readByte (s.index.toNat + k)).toNat =
        s.v x / 10 ^ (s.mode.digits - 1 - k) % 10) ∧
      (t.readBytes s.index.toNat s.mode.digits).foldl (fun v b => v * 10 + b.toNat) 0 = s.v x ∧
      KeepsBytesOutside s.index.toNat s.mode.digits s t ∧ KeepsAllBut [.mem] s t

/-- `LD [I], Vx` (R164): with the images in memory, the `B` bytes of `V0` to `Vx` stand from `I` on, most
significant first (the spec's decision D10), and `I` moves past them in the extended modes only. -/
def Obligations.BulkStoreWritesBigEndianImages : Prop :=
  ∀ (s : State) (x : RegField) (len : Nat), len = (x.toNat + 1) * s.mode.regBytes →
    s.index.toNat + len ≤ s.mode.memSize →
    Completes (.ldMemVx x) s fun t =>
      (∀ i k, i ≤ x.toNat → k < s.mode.regBytes →
        (t.readByte (s.index.toNat + i * s.mode.regBytes + k)).toNat =
          s.v (BitVec.ofNat 4 i) / 256 ^ (s.mode.regBytes - 1 - k) % 256) ∧
      t.index.toNat = (if s.mode = .legacy8 then s.index.toNat else (s.index.toNat + len) % 65536) ∧
      KeepsBytesOutside s.index.toNat len s t ∧ KeepsAllBut [.mem, .index] s t

/-- `LD Vx, [I]` (R165): with the images in memory, `V0` to `Vx` take the big-endian values of the bytes from
`I` on, no other register changes, and `I` moves past them in the extended modes only. -/
def Obligations.BulkLoadReadsBigEndianImages : Prop :=
  ∀ (s : State) (x : RegField) (len : Nat), len = (x.toNat + 1) * s.mode.regBytes →
    s.index.toNat + len ≤ s.mode.memSize →
    Completes (.ldVxMem x) s fun t =>
      (∀ i k, i ≤ x.toNat → k < s.mode.regBytes →
        t.v (BitVec.ofNat 4 i) / 256 ^ (s.mode.regBytes - 1 - k) % 256 =
          (s.readByte (s.index.toNat + i * s.mode.regBytes + k)).toNat) ∧
      t.index.toNat = (if s.mode = .legacy8 then s.index.toNat else (s.index.toNat + len) % 65536) ∧
      (∀ j : Fin Const.physRegs, x.toNat < j.val → t.regs[j.val]'j.isLt = s.regs[j.val]'j.isLt) ∧
      KeepsAllBut [.regs, .index] s t

/-- Loading what `LD [I], Vx` stored, with the same field and the same starting `I`, restores the registers,
whatever they held in between (R165). -/
def Obligations.BulkLoadRestoresWhatBulkStoreWrote : Prop :=
  ∀ (s t u w : State) (x : RegField),
    s.index.toNat + (x.toNat + 1) * s.mode.regBytes ≤ s.mode.memSize →
    exec (.ldMemVx x) s = .next t → u.mode = t.mode → u.cfg = t.cfg → u.mem = t.mem →
    u.index = s.index → exec (.ldVxMem x) u = .next w →
    ∀ i, i ≤ x.toNat → w.v (BitVec.ofNat 4 i) = s.v (BitVec.ofNat 4 i)

/-! ## Random -/

/-- The random instructions (R170 to R173, the spec's decision D28) draw one value each, about which only
its range is known: `RND` a byte masked by the literal, `RNDW` any register value, `RNDB` a value below the
bound; a zero bound gives 0 and draws nothing. The source of the draws is the model's free value (log 6). -/
def Obligations.RandomInstructionsStayInRange : Prop :=
  ∀ (s : State) (x y : RegField) (kk : BitVec 8),
    Completes (.rnd x kk) s (fun t =>
      t.v x = ((Config.randomSource s.draws).toNat % 256) &&& kk.toNat ∧ t.v x ≤ kk.toNat ∧
      t.draws = s.draws + 1 ∧ KeepsAllBut [.regs, .draws] s t ∧ KeepsRegsBut [fieldReg x] s t) ∧
    Completes (.rndw x) s (fun t =>
      t.v x = (Config.randomSource s.draws).toNat % 2 ^ s.mode.regBits ∧
      t.draws = s.draws + 1 ∧ KeepsAllBut [.regs, .draws] s t ∧ KeepsRegsBut [fieldReg x] s t) ∧
    (0 < s.v y → Completes (.rndb x y) s fun t =>
      t.v x = (Config.randomSource s.draws).toNat % s.v y ∧ t.v x < s.v y ∧
      t.draws = s.draws + 1 ∧ KeepsAllBut [.regs, .draws] s t ∧ KeepsRegsBut [fieldReg x] s t) ∧
    (s.v y = 0 → Completes (.rndb x y) s fun t => t.v x = 0 ∧ OnlyRegs [fieldReg x] s t)

/-! ## Call with parameters -/

/-- `CALLP nnn` (R175, R177; the spec's decision D17): with four free slots it pushes the return address
and `V1`, `V2`, `V3` and jumps, the registers unchanged; with fewer it reports `StackOverflow` with its own
address and pushes nothing. -/
def Obligations.CallWithParametersPushesAFrameOrReports : Prop :=
  ∀ (s : State) (nnn : BitVec 12),
    (s.sp ≤ 12 → Completes (.callp nnn) s fun t =>
      t.slot s.sp = s.pc.setWidth 64 ∧ (t.slot (s.sp + 1)).toNat = s.reg 1 ∧
      (t.slot (s.sp + 2)).toNat = s.reg 2 ∧ (t.slot (s.sp + 3)).toNat = s.reg 3 ∧
      t.sp = s.sp + 4 ∧ (∀ k, k < s.sp → t.slot k = s.slot k) ∧ t.pc.toNat = nnn.toNat ∧
      KeepsAllBut [.pc, .stack] s t) ∧
    (12 < s.sp → Completes (.callp nnn) s (Reports (.stackOverflow (s.pc - 2)) s))

/-- `RETV` (R176; the spec's decision D17): with four occupied slots it restores `V3`, `V2`, `V1` and `pc`
from them, masked to the width, and puts the callee's `V1` into `V0`; with fewer it reports `StackUnderflow`
with its own address and pops nothing. -/
def Obligations.ReturnWithValueRestoresTheFrameOrReports : Prop :=
  ∀ s : State,
    (4 ≤ s.sp → Completes .retv s fun t =>
      t.reg 0 = s.reg 1 ∧
      t.reg 1 = (s.slot (s.sp - 3)).toNat % 2 ^ s.mode.regBits ∧
      t.reg 2 = (s.slot (s.sp - 2)).toNat % 2 ^ s.mode.regBits ∧
      t.reg 3 = (s.slot (s.sp - 1)).toNat % 2 ^ s.mode.regBits ∧
      t.pc.toNat = (s.slot (s.sp - 4)).toNat % 65536 ∧ t.sp = s.sp - 4 ∧ t.stack = s.stack ∧
      KeepsAllBut [.regs, .pc, .stack] s t ∧ KeepsRegsBut [0, 1, 2, 3] s t) ∧
    (s.sp < 4 → Completes .retv s (Reports (.stackUnderflow (s.pc - 2)) s))

/-- A return with value meets the frame of its call: whatever the callee did to the registers and the rest,
if the stack is as the call left it and the mode is the same, the caller has its `V1`, `V2`, `V3`, its return
address and its stack pointer back, and the callee's `V1` in `V0` (R177). -/
def Obligations.CallThenReturnWithValueKeepsTheConvention : Prop :=
  ∀ (s t u w : State) (nnn : BitVec 12), s.sp ≤ 12 →
    exec (.callp nnn) s = .next t → u.stack = t.stack → u.sp = t.sp → u.mode = s.mode →
    exec .retv u = .next w →
    w.reg 0 = u.reg 1 ∧ w.reg 1 = s.reg 1 ∧ w.reg 2 = s.reg 2 ∧ w.reg 3 = s.reg 3 ∧
    w.pc = s.pc ∧ w.sp = s.sp

/-! ## Host operations -/

/-- `tick_timers` takes 1 from each timer that is above 0 and changes nothing else (R190); `set_key` writes
one key and nothing else (R195). -/
def Obligations.TicksAndKeysChangeOneElement : Prop :=
  ∀ (s : State) (k : Fin Const.nkeys) (p : Bool),
    (∃ t, perform .tickTimers s = .next t ∧
      t.dt.toNat = s.dt.toNat - 1 ∧ t.st.toNat = s.st.toNat - 1 ∧ KeepsAllBut [.dt, .st] s t) ∧
    (∃ t, perform (.setKey k p) s = .next t ∧
      t.keyDown k = p ∧ (∀ j, j ≠ k → t.keyDown j = s.keyDown j) ∧ KeepsAllBut [.keys] s t)

/-- `ack_redraw`, `set_effect` and `process_graphics_effect` (R196, R198, R199; the spec's decisions D13 and
D32): the framebuffer is copied, never changed, and every tenth frame of the colour cycle advances the
palette. -/
def Obligations.GraphicsOperationsLeaveTheFramebuffer : Prop :=
  ∀ (s : State) (e : Effect),
    (∃ t, perform .ackRedraw s = .next t ∧ t.redraw = false ∧ KeepsAllBut [.redraw] s t) ∧
    (∃ t, perform (.setEffect e) s = .next t ∧ t.effect = e ∧ KeepsAllBut [.effect] s t) ∧
    (∃ t, perform .processGraphicsEffect s = .next t ∧
      (∀ j, t.eb.on j = if j < s.dw * s.dh then s.fb.on j else s.eb.on j) ∧
      (s.effect = .none → KeepsAllBut [.eb] s t) ∧
      (s.effect = .colorCycle → s.effectFrames ≠ 9 →
        t.effectFrames = s.effectFrames + 1 ∧ t.paletteIndex = s.paletteIndex) ∧
      (s.effect = .colorCycle → s.effectFrames = 9 →
        t.effectFrames = 0 ∧ t.paletteIndex = (s.paletteIndex + 1) % s.cfg.paletteSize) ∧
      KeepsAllBut [.eb, .cycle] s t)

/-- `load_program` (R213): an image that fits is copied verbatim from the origin on and changes no other
byte and no other element but its result; a longer one is rejected and changes nothing but the report. -/
def Obligations.LoadProgramCopiesTheImageOrRejects : Prop :=
  ∀ (s : State) (bytes : List Byte),
    (bytes.length ≤ s.mode.memSize - 0x200 → ∃ t, perform (.loadProgram bytes) s = .next t ∧
      t.status = .ok ∧ t.faultLog = s.faultLog ∧
      (∀ k (h : k < bytes.length), t.readByte (0x200 + k) = bytes[k]) ∧
      KeepsBytesOutside 0x200 bytes.length s t ∧ KeepsAllBut [.mem, .report] s t) ∧
    (s.mode.memSize - 0x200 < bytes.length → ∃ t, perform (.loadProgram bytes) s = .next t ∧
      Reports (.romTooLarge bytes.length) s t)

/-- `set_mode` (R215, the spec's decision D2): to the current mode it changes nothing; to another it masks
every physical register, clears both pixel buffers, sets `redraw`, and keeps everything else. -/
def Obligations.SetModeMasksRegistersAndClearsTheDisplay : Prop :=
  ∀ (s : State) (m : Mode), ∃ t, perform (.setMode m) s = .next t ∧
    (m = s.mode → t = s) ∧
    (m ≠ s.mode → t.mode = m ∧
      (∀ i : Fin Const.physRegs, (t.regs[i.val]'i.isLt).toNat =
        (s.regs[i.val]'i.isLt).toNat % 2 ^ m.regBits) ∧
      (∀ j, t.fb.on j = false) ∧ (∀ j, t.eb.on j = false) ∧ t.redraw = true ∧
      KeepsAllBut [.mode, .regs, .fb, .eb, .redraw] s t)

/-- `reset` (R210, R44): from any state every element has its reset value: `Legacy8`, the font in memory and
0 elsewhere, `pc` at the origin, everything else 0. The random source is not reset (R210); its
counter `draws`, in which that is said, is the model's choice (log 6). That the configuration is a field,
which is kept, is the model's choice (log 3), and so are that the fault log is kept and the status is `ok`
(log 14). -/
def Obligations.ResetGivesEveryElementItsValue : Prop :=
  ∀ s : State, ∃ t, perform .reset s = .next t ∧
    t.mode = .legacy8 ∧ t.pc = 0x200#16 ∧ t.index = 0#16 ∧ t.sp = 0 ∧ t.dt = 0#8 ∧ t.st = 0#8 ∧
    (∀ a, t.readByte a = s.cfg.font.getD a 0#8) ∧
    (∀ i : Fin Const.physRegs, t.regs[i.val]'i.isLt = 0#64) ∧ (∀ k, t.slot k = 0#64) ∧
    (∀ j, t.fb.on j = false) ∧ (∀ j, t.eb.on j = false) ∧ t.redraw = false ∧
    (∀ k, t.keyDown k = false) ∧ t.effect = .none ∧ t.effectFrames = 0 ∧ t.paletteIndex = 0 ∧
    t.cfg = s.cfg ∧ t.draws = s.draws ∧ t.faultLog = s.faultLog ∧ t.status = .ok

/-! ## The decode table and the upper registers -/

/-- Over every decode table that meets its constraint (in part the model's choice, log 21), an opcode decodes
to the operation of the row it selects, by mask, match, mode condition and extra constraint, and it selects no
second row (R80); the table of R80 meets the constraint, and decoding over it is the function of R81. -/
def Obligations.DecoderReadsTheOneRowOfTheTable : Prop :=
  (∀ (t : List Row) (m : Mode) (op : Opcode) (r : Row), tableOk t = true → r ∈ t →
    op &&& r.mask = r.value → r.gate.admits m = true → r.least ≤ op.nnn.toNat →
    decodeWord t m op = some (r.op.instr op) ∧ (t.filter fun q => q.selects m op) = [r]) ∧
  (∀ (t : List Row) (m : Mode) (op : Opcode) (i : Instr), decodeWord t m op = some i →
    ∃ r ∈ t, op &&& r.mask = r.value ∧ r.gate.admits m = true ∧ r.least ≤ op.nnn.toNat ∧
      i = r.op.instr op) ∧
  tableOk tableR80 = true ∧
  ∀ (m : Mode) (op : Opcode), decodeWord tableR80 m op = decodeCases m op

/-- No instruction reads a register above 15, but `VADD` and `DOT` on the pair of register 15, as first or
second operand, which read register 16 in `Extended64`: with another value in such a register an instruction
gives the same next state but for that register (R26, R127, R128; the spec's decision D37). That a random
instruction draws the same value in both is the model's choice (log 6). -/
def Obligations.UpperRegistersAreReadAsPairPartnerOnly : Prop :=
  ∀ (i : Instr) (s t : State) (j : Fin Const.physRegs) (c : Cell64),
    exec i s = .next t → 16 ≤ j.val →
    ¬ (s.mode = .extended64 ∧ j.val = 16 ∧
      ∃ x y, (x = 15#4 ∨ y = 15#4) ∧ (i = .vadd x y ∨ i = .dot x y)) →
    ∃ d, exec i (s.poke j c) = .next (t.poke j d)
end

