-- ==== Sys2Proof/Laws/Decode.lean ====
section
/-!
SUPPORT. Laws/Decode.lean: the fields of R72 read back from the words of each format (spec/30_encoding.md,
R72, R73), a word as the word of its fields, and what a row of a decode table (R80) can do: its words hold
its fixed bits and give their instruction back, and rows that accept a common opcode overlap.
-/

namespace Sys2Proof

theorem getLsbD_wordA (fam : BitVec 4) (nnn : BitVec 12) (i : Nat) :
    (wordA fam nnn).getLsbD i = if i < 12 then nnn.getLsbD i else fam.getLsbD (i - 12) :=
  BitVec.getLsbD_append

theorem getLsbD_wordRI (fam : BitVec 4) (x : RegField) (kk : BitVec 8) (i : Nat) :
    (wordRI fam x kk).getLsbD i =
      if i < 8 then kk.getLsbD i
      else if i - 8 < 4 then x.getLsbD (i - 8) else fam.getLsbD (i - 8 - 4) :=
  BitVec.getLsbD_append.trans (by rw [BitVec.getLsbD_append])

theorem getLsbD_wordRR (fam : BitVec 4) (x y : RegField) (n : BitVec 4) (i : Nat) :
    (wordRR fam x y n).getLsbD i =
      if i < 4 then n.getLsbD i
      else if i - 4 < 4 then y.getLsbD (i - 4)
      else if i - 4 - 4 < 4 then x.getLsbD (i - 4 - 4) else fam.getLsbD (i - 4 - 4 - 4) :=
  BitVec.getLsbD_append.trans (by rw [BitVec.getLsbD_append, BitVec.getLsbD_append])

/-- One field of a word: each of its bits is the bit of the format at its place. -/
theorem field_ext {w : Nat} (op : Opcode) (start : Nat) (v : BitVec w)
    (h : ∀ i, i < w → op.getLsbD (start + i) = v.getLsbD i) : op.extractLsb' start w = v := by
  ext i hi
  rw [BitVec.getElem_extractLsb', h i hi, BitVec.getLsbD_eq_getElem hi]

/-! ## Format A -/

@[simp] theorem wordA_fam (fam : BitVec 4) (nnn : BitVec 12) : (wordA fam nnn).fam = fam :=
  field_ext _ _ _ fun i _ => by
    rw [getLsbD_wordA, if_neg (by omega), Nat.add_sub_cancel_left]

@[simp] theorem wordA_nnn (fam : BitVec 4) (nnn : BitVec 12) : (wordA fam nnn).nnn = nnn :=
  field_ext _ _ _ fun i hi => by rw [getLsbD_wordA, if_pos (by omega), Nat.zero_add]

theorem wordA_x (fam : BitVec 4) (nnn : BitVec 12) :
    (wordA fam nnn).x = nnn.extractLsb' 8 4 :=
  field_ext _ _ _ fun i hi => by
    rw [getLsbD_wordA, if_pos (by omega), BitVec.getLsbD_extractLsb']
    simp [hi]

/-! ## Formats RI and R -/

@[simp] theorem wordRI_fam (fam : BitVec 4) (x : RegField) (kk : BitVec 8) :
    (wordRI fam x kk).fam = fam :=
  field_ext _ _ _ fun i _ => by
    rw [getLsbD_wordRI, if_neg (by omega), if_neg (by omega), show 12 + i - 8 - 4 = i by omega]

@[simp] theorem wordRI_x (fam : BitVec 4) (x : RegField) (kk : BitVec 8) : (wordRI fam x kk).x = x :=
  field_ext _ _ _ fun i hi => by
    rw [getLsbD_wordRI, if_neg (by omega), if_pos (by omega), Nat.add_sub_cancel_left]

@[simp] theorem wordRI_kk (fam : BitVec 4) (x : RegField) (kk : BitVec 8) :
    (wordRI fam x kk).kk = kk :=
  field_ext _ _ _ fun i hi => by rw [getLsbD_wordRI, if_pos (by omega), Nat.zero_add]

/-! ## Formats RR and RRN -/

@[simp] theorem wordRR_fam (fam : BitVec 4) (x y : RegField) (n : BitVec 4) :
    (wordRR fam x y n).fam = fam :=
  field_ext _ _ _ fun i _ => by
    rw [getLsbD_wordRR, if_neg (by omega), if_neg (by omega), if_neg (by omega),
      show 12 + i - 4 - 4 - 4 = i by omega]

@[simp] theorem wordRR_x (fam : BitVec 4) (x y : RegField) (n : BitVec 4) :
    (wordRR fam x y n).x = x :=
  field_ext _ _ _ fun i hi => by
    rw [getLsbD_wordRR, if_neg (by omega), if_neg (by omega), if_pos (by omega),
      show 8 + i - 4 - 4 = i by omega]

@[simp] theorem wordRR_y (fam : BitVec 4) (x y : RegField) (n : BitVec 4) :
    (wordRR fam x y n).y = y :=
  field_ext _ _ _ fun i hi => by
    rw [getLsbD_wordRR, if_neg (by omega), if_pos (by omega), Nat.add_sub_cancel_left]

@[simp] theorem wordRR_n (fam : BitVec 4) (x y : RegField) (n : BitVec 4) :
    (wordRR fam x y n).n = n :=
  field_ext _ _ _ fun i hi => by rw [getLsbD_wordRR, if_pos (by omega), Nat.zero_add]

/-! ## Words from their fields -/

theorem wordA_of_fields (op : Opcode) : wordA op.fam op.nnn = op := by
  apply BitVec.eq_of_getLsbD_eq
  intro i hi
  rw [getLsbD_wordA]
  split
  · simp [Opcode.nnn, *]
  · simp only [Opcode.fam, BitVec.getLsbD_extractLsb', show 12 + (i - 12) = i by omega,
      show i - 12 < 4 by omega, decide_true, Bool.true_and]

theorem wordRI_of_fields (op : Opcode) : wordRI op.fam op.x op.kk = op := by
  apply BitVec.eq_of_getLsbD_eq
  intro i hi
  rw [getLsbD_wordRI]
  split
  · simp [Opcode.kk, *]
  · split
    · simp only [Opcode.x, BitVec.getLsbD_extractLsb', show 8 + (i - 8) = i by omega,
        show i - 8 < 4 by omega, decide_true, Bool.true_and]
    · simp only [Opcode.fam, BitVec.getLsbD_extractLsb', show 12 + (i - 8 - 4) = i by omega,
        show i - 8 - 4 < 4 by omega, decide_true, Bool.true_and]

theorem wordRR_of_fields (op : Opcode) : wordRR op.fam op.x op.y op.n = op := by
  apply BitVec.eq_of_getLsbD_eq
  intro i hi
  rw [getLsbD_wordRR]
  split
  · simp [Opcode.n, *]
  · split
    · simp only [Opcode.y, BitVec.getLsbD_extractLsb', show 4 + (i - 4) = i by omega,
        show i - 4 < 4 by omega, decide_true, Bool.true_and]
    · split
      · simp only [Opcode.x, BitVec.getLsbD_extractLsb', show 8 + (i - 4 - 4) = i by omega,
          show i - 4 - 4 < 4 by omega, decide_true, Bool.true_and]
      · simp only [Opcode.fam, BitVec.getLsbD_extractLsb', show 12 + (i - 4 - 4 - 4) = i by omega,
          show i - 4 - 4 - 4 < 4 by omega, decide_true, Bool.true_and]

/-! ## Bytes -/

theorem wordOfBytes_high_low (op : Opcode) : wordOfBytes (highByte op) (lowByte op) = op := by
  apply BitVec.eq_of_getLsbD_eq
  intro i hi
  refine BitVec.getLsbD_append.trans ?_
  split
  · simp [lowByte, *]
  · simp only [highByte, BitVec.getLsbD_extractLsb', show 8 + (i - 8) = i by omega,
      show i - 8 < 8 by omega, decide_true, Bool.true_and]

/-! ## Fields and bitwise operations -/

theorem Opcode.fam_or (a b : Opcode) : Opcode.fam (a ||| b) = a.fam ||| b.fam := BitVec.extractLsb'_or
theorem Opcode.x_or (a b : Opcode) : Opcode.x (a ||| b) = a.x ||| b.x := BitVec.extractLsb'_or
theorem Opcode.y_or (a b : Opcode) : Opcode.y (a ||| b) = a.y ||| b.y := BitVec.extractLsb'_or
theorem Opcode.n_or (a b : Opcode) : Opcode.n (a ||| b) = a.n ||| b.n := BitVec.extractLsb'_or
theorem Opcode.kk_or (a b : Opcode) : Opcode.kk (a ||| b) = a.kk ||| b.kk := BitVec.extractLsb'_or
theorem Opcode.nnn_or (a b : Opcode) : Opcode.nnn (a ||| b) = a.nnn ||| b.nnn := BitVec.extractLsb'_or
theorem Opcode.fam_and (a b : Opcode) : Opcode.fam (a &&& b) = a.fam &&& b.fam := BitVec.extractLsb'_and
theorem Opcode.x_and (a b : Opcode) : Opcode.x (a &&& b) = a.x &&& b.x := BitVec.extractLsb'_and
theorem Opcode.y_and (a b : Opcode) : Opcode.y (a &&& b) = a.y &&& b.y := BitVec.extractLsb'_and
theorem Opcode.n_and (a b : Opcode) : Opcode.n (a &&& b) = a.n &&& b.n := BitVec.extractLsb'_and
theorem Opcode.kk_and (a b : Opcode) : Opcode.kk (a &&& b) = a.kk &&& b.kk := BitVec.extractLsb'_and
theorem Opcode.nnn_and (a b : Opcode) : Opcode.nnn (a &&& b) = a.nnn &&& b.nnn := BitVec.extractLsb'_and

/-- An operation with operands is that operation. -/
@[simp] theorem Op.op_instr (o : Op) (w : Opcode) : (o.instr w).op = o := by cases o <;> rfl

/-! ## Masks -/

theorem allOnes4 (x : BitVec 4) : x &&& 15#4 = x := BitVec.and_allOnes
theorem allOnes8 (x : BitVec 8) : x &&& 255#8 = x := BitVec.and_allOnes
theorem allOnes12 (x : BitVec 12) : x &&& 4095#12 = x := BitVec.and_allOnes

/-- Masking a word of format A masks its parts. -/
theorem wordA_and (fam f : BitVec 4) (nnn v : BitVec 12) :
    wordA fam nnn &&& wordA f v = wordA (fam &&& f) (nnn &&& v) := BitVec.and_append

/-- Masking a word of format RI. -/
theorem wordRI_and (fam f : BitVec 4) (x v : RegField) (kk k : BitVec 8) :
    wordRI fam x kk &&& wordRI f v k = wordRI (fam &&& f) (x &&& v) (kk &&& k) :=
  BitVec.and_append.trans (congrArg (· ++ (kk &&& k)) BitVec.and_append)

/-- Masking a word of format RR. -/
theorem wordRR_and (fam f : BitVec 4) (x v y u : RegField) (n k : BitVec 4) :
    wordRR fam x y n &&& wordRR f v u k = wordRR (fam &&& f) (x &&& v) (y &&& u) (n &&& k) :=
  BitVec.and_append.trans (congrArg (· ++ (n &&& k))
    (BitVec.and_append.trans (congrArg (· ++ (y &&& u)) BitVec.and_append)))

/-- The operands of an operation read from an opcode are the opcode's bits at the operand places. -/
theorem Op.operands_instr (o : Op) (w : Opcode) : (o.instr w).operands = w &&& o.operandBits := by
  have ha : wordA 0#4 w.nnn = w &&& wordA 0#4 0xFFF#12 := by
    conv_rhs => rw [← wordA_of_fields w]
    rw [wordA_and, BitVec.and_zero, allOnes12]
  have hri : wordRI 0#4 w.x w.kk = w &&& wordRI 0#4 0xF#4 0xFF#8 := by
    conv_rhs => rw [← wordRI_of_fields w]
    rw [wordRI_and, BitVec.and_zero, allOnes4, allOnes8]
  have hr : wordRI 0#4 w.x 0#8 = w &&& wordRI 0#4 0xF#4 0#8 := by
    conv_rhs => rw [← wordRI_of_fields w]
    rw [wordRI_and, BitVec.and_zero, allOnes4, BitVec.and_zero]
  have hrr : wordRR 0#4 w.x w.y 0#4 = w &&& wordRR 0#4 0xF#4 0xF#4 0#4 := by
    conv_rhs => rw [← wordRR_of_fields w]
    rw [wordRR_and, BitVec.and_zero, allOnes4, allOnes4, BitVec.and_zero]
  have hrrn : wordRR 0#4 w.x w.y w.n = w &&& wordRR 0#4 0xF#4 0xF#4 0xF#4 := by
    conv_rhs => rw [← wordRR_of_fields w]
    rw [wordRR_and, BitVec.and_zero, allOnes4, allOnes4, allOnes4]
  cases o <;> first | exact BitVec.and_zero.symm | exact ha | exact hri | exact hr | exact hrr | exact hrrn

/-- A word that holds the operands of an instruction at their places, beside bits elsewhere, gives the
instruction back. -/
theorem Op.instr_or_operands (i : Instr) (v : Opcode) (h : v &&& i.op.operandBits = 0#16) :
    i.op.instr (v ||| i.operands) = i := by
  have hx {k : Opcode} (h : v &&& k = 0#16) (e : k.x = 15#4) : v.x = 0#4 := by
    rw [← allOnes4 v.x, ← e, ← Opcode.x_and, h]; rfl
  have hy {k : Opcode} (h : v &&& k = 0#16) (e : k.y = 15#4) : v.y = 0#4 := by
    rw [← allOnes4 v.y, ← e, ← Opcode.y_and, h]; rfl
  have hr (h : v &&& 0x0F00#16 = 0#16) : v.x = 0#4 := hx h (by decide)
  have hrr (h : v &&& 0x0FF0#16 = 0#16) : v.x = 0#4 ∧ v.y = 0#4 := ⟨hx h (by decide), hy h (by decide)⟩
  have ha (h : v &&& 0x0FFF#16 = 0#16) :
      v.x = 0#4 ∧ v.y = 0#4 ∧ v.n = 0#4 ∧ v.kk = 0#8 ∧ v.nnn = 0#12 := by
    refine ⟨hx h (by decide), hy h (by decide), ?_, ?_, ?_⟩
    · rw [← allOnes4 v.n, show 15#4 = Opcode.n 0x0FFF#16 by decide, ← Opcode.n_and, h]; rfl
    · rw [← allOnes8 v.kk, show 255#8 = Opcode.kk 0x0FFF#16 by decide, ← Opcode.kk_and, h]; rfl
    · rw [← allOnes12 v.nnn, show 4095#12 = Opcode.nnn 0x0FFF#16 by decide, ← Opcode.nnn_and, h]; rfl
  cases i <;>
    first
    | rfl
    | simp [Instr.op, Op.instr, Instr.operands, Opcode.x_or, hr h]
    | simp [Instr.op, Op.instr, Instr.operands, Opcode.x_or, Opcode.y_or, hrr h]
    | simp [Instr.op, Op.instr, Instr.operands, Opcode.x_or, Opcode.y_or, Opcode.n_or, Opcode.kk_or,
        Opcode.nnn_or, ha h]

/-- Operands stand at the operand places only. -/
theorem Instr.operands_and_operandBits (i : Instr) : i.operands &&& i.op.operandBits = i.operands := by
  rw [← Op.operands_instr]
  have h := Op.instr_or_operands i 0#16 BitVec.zero_and
  rw [BitVec.zero_or] at h
  rw [h]

/-! ## Rows -/

/-- What `Row.wf` says. -/
theorem Row.wf_iff (r : Row) : r.wf = true ↔
    r.value &&& ~~~r.mask = 0#16 ∧ r.mask &&& r.op.operandBits = 0#16 ∧
    (r.least = 0 ∨ r.op.operandBits = 0x0FFF#16) := by
  simp [Row.wf, and_assoc]

/-- What `Row.selects` says. -/
theorem Row.selects_iff (r : Row) (m : Mode) (w : Opcode) : r.selects m w = true ↔
    w &&& r.mask = r.value ∧ r.gate.admits m = true ∧ r.least ≤ w.nnn.toNat := by
  simp [Row.selects, and_assoc]

/-- What `Row.spells` says. -/
theorem Row.spells_iff (r : Row) (m : Mode) (i : Instr) : r.spells m i = true ↔
    r.op = i.op ∧ r.gate.admits m = true ∧ r.least ≤ (r.word i).nnn.toNat := by
  simp [Row.spells, and_assoc]

/-- The value bits of a row lie in its mask. -/
theorem Row.value_and_mask {r : Row} (h : r.wf = true) : r.value &&& r.mask = r.value := by
  have h1 := ((r.wf_iff).1 h).1
  apply BitVec.eq_of_getLsbD_eq
  intro i hi
  have := congrArg (fun v : Opcode => v.getLsbD i) h1
  simp only [BitVec.getLsbD_and, BitVec.getLsbD_not, hi, decide_true, Bool.true_and,
    BitVec.getLsbD_zero] at this ⊢
  revert this
  cases r.value.getLsbD i <;> cases r.mask.getLsbD i <;> simp

/-- The value of a row holds no operand. -/
theorem Row.value_and_operandBits {r : Row} (h : r.wf = true) : r.value &&& r.op.operandBits = 0#16 := by
  rw [← value_and_mask h, BitVec.and_assoc, ((r.wf_iff).1 h).2.1, BitVec.and_zero]

/-- The fixed bits of a row stand in the word of each of its instructions. -/
theorem Row.word_and_mask {r : Row} {i : Instr} (h : r.wf = true) (hi : r.op = i.op) :
    r.word i &&& r.mask = r.value := by
  have h2 : i.operands &&& r.mask = 0#16 := by
    rw [← Instr.operands_and_operandBits, ← hi, BitVec.and_assoc, BitVec.and_comm _ r.mask,
      ((r.wf_iff).1 h).2.1, BitVec.and_zero]
  rw [Row.word, BitVec.and_comm, BitVec.and_or_distrib_left, BitVec.and_comm r.mask, value_and_mask h,
    BitVec.and_comm r.mask, h2, BitVec.or_zero]

/-- The word of an instruction in a row gives the instruction back. -/
theorem Row.instr_word {r : Row} {i : Instr} (h : r.wf = true) (hi : r.op = i.op) :
    r.op.instr (r.word i) = i := by
  have hv := value_and_operandBits h
  rw [hi] at hv ⊢
  exact Op.instr_or_operands i r.value hv

/-- Two rows that accept a common opcode overlap. -/
theorem Row.overlaps_of_accepts {r q : Row} {w : Opcode} (hr : r.accepts w = true)
    (hq : q.accepts w = true) : r.overlaps q = true := by
  simp only [Row.accepts, Bool.and_eq_true, decide_eq_true_eq] at hr hq
  have bits (i : Nat) : r.value.getLsbD i = (w.getLsbD i && r.mask.getLsbD i) ∧
      q.value.getLsbD i = (w.getLsbD i && q.mask.getLsbD i) := by
    rw [← hr.1, ← hq.1]; simp
  have hn : w.nnn.toNat ≤
      (Opcode.nnn (r.value ||| q.value ||| ~~~(r.mask ||| q.mask))).toNat := by
    have : w.nnn &&& Opcode.nnn (r.value ||| q.value ||| ~~~(r.mask ||| q.mask)) = w.nnn := by
      rw [← Opcode.nnn_and]
      congr 1
      apply BitVec.eq_of_getLsbD_eq
      intro i hi
      simp only [BitVec.getLsbD_and, BitVec.getLsbD_or, BitVec.getLsbD_not, hi, decide_true,
        Bool.true_and, (bits i).1, (bits i).2]
      cases w.getLsbD i <;> cases r.mask.getLsbD i <;> cases q.mask.getLsbD i <;> rfl
    rw [← this, BitVec.toNat_and]
    exact Nat.and_le_right
  simp only [Row.overlaps, Row.accepts, Bool.and_eq_true, decide_eq_true_eq]
  refine ⟨⟨?_, hr.2.trans hn⟩, ?_, hq.2.trans hn⟩ <;>
  · apply BitVec.eq_of_getLsbD_eq
    intro i hi
    simp only [BitVec.getLsbD_and, BitVec.getLsbD_or, BitVec.getLsbD_not, hi, decide_true,
      Bool.true_and, (bits i).1, (bits i).2]
    cases w.getLsbD i <;> cases r.mask.getLsbD i <;> cases q.mask.getLsbD i <;> rfl

/-- A row accepts what selects it. -/
theorem Row.accepts_of_selects {r : Row} {m : Mode} {w : Opcode} (h : r.selects m w = true) :
    r.accepts w = true := by
  have := (r.selects_iff m w).1 h
  simp [Row.accepts, this.1, this.2.2]

end Sys2Proof
end

