-- ==== Sys2Proof/Laws/State.lean ====
section
/-!
SUPPORT. Laws/State.lean: what each setter leaves in each field, one lemma per field per update.
-/

namespace Sys2Proof.Machine

variable (s : State)

@[simp] theorem State.setMem_mem (m : Memory) : (s.setMem m).mem = m := rfl
@[simp] theorem State.setMem_regs (m : Memory) : (s.setMem m).regs = s.regs := rfl
@[simp] theorem State.setMem_index (m : Memory) : (s.setMem m).index = s.index := rfl
@[simp] theorem State.setMem_pc (m : Memory) : (s.setMem m).pc = s.pc := rfl
@[simp] theorem State.setMem_stack (m : Memory) : (s.setMem m).stack = s.stack := rfl
@[simp] theorem State.setMem_sp (m : Memory) : (s.setMem m).sp = s.sp := rfl
@[simp] theorem State.setMem_fb (m : Memory) : (s.setMem m).fb = s.fb := rfl
@[simp] theorem State.setMem_eb (m : Memory) : (s.setMem m).eb = s.eb := rfl
@[simp] theorem State.setMem_redraw (m : Memory) : (s.setMem m).redraw = s.redraw := rfl
@[simp] theorem State.setMem_dt (m : Memory) : (s.setMem m).dt = s.dt := rfl
@[simp] theorem State.setMem_st (m : Memory) : (s.setMem m).st = s.st := rfl
@[simp] theorem State.setMem_keys (m : Memory) : (s.setMem m).keys = s.keys := rfl
@[simp] theorem State.setMem_mode (m : Memory) : (s.setMem m).mode = s.mode := rfl
@[simp] theorem State.setMem_effect (m : Memory) : (s.setMem m).effect = s.effect := rfl
@[simp] theorem State.setMem_effectFrames (m : Memory) : (s.setMem m).effectFrames = s.effectFrames := rfl
@[simp] theorem State.setMem_paletteIndex (m : Memory) : (s.setMem m).paletteIndex = s.paletteIndex := rfl
@[simp] theorem State.setMem_cfg (m : Memory) : (s.setMem m).cfg = s.cfg := rfl
@[simp] theorem State.setMem_draws (m : Memory) : (s.setMem m).draws = s.draws := rfl
@[simp] theorem State.setMem_status (m : Memory) : (s.setMem m).status = s.status := rfl
@[simp] theorem State.setMem_faultLog (m : Memory) : (s.setMem m).faultLog = s.faultLog := rfl

@[simp] theorem State.setRegs_mem (r : Vector Cell64 Const.physRegs) : (s.setRegs r).mem = s.mem := rfl
@[simp] theorem State.setRegs_regs (r : Vector Cell64 Const.physRegs) : (s.setRegs r).regs = r := rfl
@[simp] theorem State.setRegs_index (r : Vector Cell64 Const.physRegs) : (s.setRegs r).index = s.index := rfl
@[simp] theorem State.setRegs_pc (r : Vector Cell64 Const.physRegs) : (s.setRegs r).pc = s.pc := rfl
@[simp] theorem State.setRegs_stack (r : Vector Cell64 Const.physRegs) : (s.setRegs r).stack = s.stack := rfl
@[simp] theorem State.setRegs_sp (r : Vector Cell64 Const.physRegs) : (s.setRegs r).sp = s.sp := rfl
@[simp] theorem State.setRegs_fb (r : Vector Cell64 Const.physRegs) : (s.setRegs r).fb = s.fb := rfl
@[simp] theorem State.setRegs_eb (r : Vector Cell64 Const.physRegs) : (s.setRegs r).eb = s.eb := rfl
@[simp] theorem State.setRegs_redraw (r : Vector Cell64 Const.physRegs) : (s.setRegs r).redraw = s.redraw := rfl
@[simp] theorem State.setRegs_dt (r : Vector Cell64 Const.physRegs) : (s.setRegs r).dt = s.dt := rfl
@[simp] theorem State.setRegs_st (r : Vector Cell64 Const.physRegs) : (s.setRegs r).st = s.st := rfl
@[simp] theorem State.setRegs_keys (r : Vector Cell64 Const.physRegs) : (s.setRegs r).keys = s.keys := rfl
@[simp] theorem State.setRegs_mode (r : Vector Cell64 Const.physRegs) : (s.setRegs r).mode = s.mode := rfl
@[simp] theorem State.setRegs_effect (r : Vector Cell64 Const.physRegs) : (s.setRegs r).effect = s.effect := rfl
@[simp] theorem State.setRegs_effectFrames (r : Vector Cell64 Const.physRegs) : (s.setRegs r).effectFrames = s.effectFrames := rfl
@[simp] theorem State.setRegs_paletteIndex (r : Vector Cell64 Const.physRegs) : (s.setRegs r).paletteIndex = s.paletteIndex := rfl
@[simp] theorem State.setRegs_cfg (r : Vector Cell64 Const.physRegs) : (s.setRegs r).cfg = s.cfg := rfl
@[simp] theorem State.setRegs_draws (r : Vector Cell64 Const.physRegs) : (s.setRegs r).draws = s.draws := rfl
@[simp] theorem State.setRegs_status (r : Vector Cell64 Const.physRegs) : (s.setRegs r).status = s.status := rfl
@[simp] theorem State.setRegs_faultLog (r : Vector Cell64 Const.physRegs) : (s.setRegs r).faultLog = s.faultLog := rfl

@[simp] theorem State.setIndex_mem (a : Addr) : (s.setIndex a).mem = s.mem := rfl
@[simp] theorem State.setIndex_regs (a : Addr) : (s.setIndex a).regs = s.regs := rfl
@[simp] theorem State.setIndex_index (a : Addr) : (s.setIndex a).index = a := rfl
@[simp] theorem State.setIndex_pc (a : Addr) : (s.setIndex a).pc = s.pc := rfl
@[simp] theorem State.setIndex_stack (a : Addr) : (s.setIndex a).stack = s.stack := rfl
@[simp] theorem State.setIndex_sp (a : Addr) : (s.setIndex a).sp = s.sp := rfl
@[simp] theorem State.setIndex_fb (a : Addr) : (s.setIndex a).fb = s.fb := rfl
@[simp] theorem State.setIndex_eb (a : Addr) : (s.setIndex a).eb = s.eb := rfl
@[simp] theorem State.setIndex_redraw (a : Addr) : (s.setIndex a).redraw = s.redraw := rfl
@[simp] theorem State.setIndex_dt (a : Addr) : (s.setIndex a).dt = s.dt := rfl
@[simp] theorem State.setIndex_st (a : Addr) : (s.setIndex a).st = s.st := rfl
@[simp] theorem State.setIndex_keys (a : Addr) : (s.setIndex a).keys = s.keys := rfl
@[simp] theorem State.setIndex_mode (a : Addr) : (s.setIndex a).mode = s.mode := rfl
@[simp] theorem State.setIndex_effect (a : Addr) : (s.setIndex a).effect = s.effect := rfl
@[simp] theorem State.setIndex_effectFrames (a : Addr) : (s.setIndex a).effectFrames = s.effectFrames := rfl
@[simp] theorem State.setIndex_paletteIndex (a : Addr) : (s.setIndex a).paletteIndex = s.paletteIndex := rfl
@[simp] theorem State.setIndex_cfg (a : Addr) : (s.setIndex a).cfg = s.cfg := rfl
@[simp] theorem State.setIndex_draws (a : Addr) : (s.setIndex a).draws = s.draws := rfl
@[simp] theorem State.setIndex_status (a : Addr) : (s.setIndex a).status = s.status := rfl
@[simp] theorem State.setIndex_faultLog (a : Addr) : (s.setIndex a).faultLog = s.faultLog := rfl

@[simp] theorem State.setPc_mem (a : Addr) : (s.setPc a).mem = s.mem := rfl
@[simp] theorem State.setPc_regs (a : Addr) : (s.setPc a).regs = s.regs := rfl
@[simp] theorem State.setPc_index (a : Addr) : (s.setPc a).index = s.index := rfl
@[simp] theorem State.setPc_pc (a : Addr) : (s.setPc a).pc = a := rfl
@[simp] theorem State.setPc_stack (a : Addr) : (s.setPc a).stack = s.stack := rfl
@[simp] theorem State.setPc_sp (a : Addr) : (s.setPc a).sp = s.sp := rfl
@[simp] theorem State.setPc_fb (a : Addr) : (s.setPc a).fb = s.fb := rfl
@[simp] theorem State.setPc_eb (a : Addr) : (s.setPc a).eb = s.eb := rfl
@[simp] theorem State.setPc_redraw (a : Addr) : (s.setPc a).redraw = s.redraw := rfl
@[simp] theorem State.setPc_dt (a : Addr) : (s.setPc a).dt = s.dt := rfl
@[simp] theorem State.setPc_st (a : Addr) : (s.setPc a).st = s.st := rfl
@[simp] theorem State.setPc_keys (a : Addr) : (s.setPc a).keys = s.keys := rfl
@[simp] theorem State.setPc_mode (a : Addr) : (s.setPc a).mode = s.mode := rfl
@[simp] theorem State.setPc_effect (a : Addr) : (s.setPc a).effect = s.effect := rfl
@[simp] theorem State.setPc_effectFrames (a : Addr) : (s.setPc a).effectFrames = s.effectFrames := rfl
@[simp] theorem State.setPc_paletteIndex (a : Addr) : (s.setPc a).paletteIndex = s.paletteIndex := rfl
@[simp] theorem State.setPc_cfg (a : Addr) : (s.setPc a).cfg = s.cfg := rfl
@[simp] theorem State.setPc_draws (a : Addr) : (s.setPc a).draws = s.draws := rfl
@[simp] theorem State.setPc_status (a : Addr) : (s.setPc a).status = s.status := rfl
@[simp] theorem State.setPc_faultLog (a : Addr) : (s.setPc a).faultLog = s.faultLog := rfl

@[simp] theorem State.setStack_mem (k : Vector Cell64 Const.stackDepth) (n : Nat) : (s.setStack k n).mem = s.mem := rfl
@[simp] theorem State.setStack_regs (k : Vector Cell64 Const.stackDepth) (n : Nat) : (s.setStack k n).regs = s.regs := rfl
@[simp] theorem State.setStack_index (k : Vector Cell64 Const.stackDepth) (n : Nat) : (s.setStack k n).index = s.index := rfl
@[simp] theorem State.setStack_pc (k : Vector Cell64 Const.stackDepth) (n : Nat) : (s.setStack k n).pc = s.pc := rfl
@[simp] theorem State.setStack_stack (k : Vector Cell64 Const.stackDepth) (n : Nat) : (s.setStack k n).stack = k := rfl
@[simp] theorem State.setStack_sp (k : Vector Cell64 Const.stackDepth) (n : Nat) : (s.setStack k n).sp = n := rfl
@[simp] theorem State.setStack_fb (k : Vector Cell64 Const.stackDepth) (n : Nat) : (s.setStack k n).fb = s.fb := rfl
@[simp] theorem State.setStack_eb (k : Vector Cell64 Const.stackDepth) (n : Nat) : (s.setStack k n).eb = s.eb := rfl
@[simp] theorem State.setStack_redraw (k : Vector Cell64 Const.stackDepth) (n : Nat) : (s.setStack k n).redraw = s.redraw := rfl
@[simp] theorem State.setStack_dt (k : Vector Cell64 Const.stackDepth) (n : Nat) : (s.setStack k n).dt = s.dt := rfl
@[simp] theorem State.setStack_st (k : Vector Cell64 Const.stackDepth) (n : Nat) : (s.setStack k n).st = s.st := rfl
@[simp] theorem State.setStack_keys (k : Vector Cell64 Const.stackDepth) (n : Nat) : (s.setStack k n).keys = s.keys := rfl
@[simp] theorem State.setStack_mode (k : Vector Cell64 Const.stackDepth) (n : Nat) : (s.setStack k n).mode = s.mode := rfl
@[simp] theorem State.setStack_effect (k : Vector Cell64 Const.stackDepth) (n : Nat) : (s.setStack k n).effect = s.effect := rfl
@[simp] theorem State.setStack_effectFrames (k : Vector Cell64 Const.stackDepth) (n : Nat) : (s.setStack k n).effectFrames = s.effectFrames := rfl
@[simp] theorem State.setStack_paletteIndex (k : Vector Cell64 Const.stackDepth) (n : Nat) : (s.setStack k n).paletteIndex = s.paletteIndex := rfl
@[simp] theorem State.setStack_cfg (k : Vector Cell64 Const.stackDepth) (n : Nat) : (s.setStack k n).cfg = s.cfg := rfl
@[simp] theorem State.setStack_draws (k : Vector Cell64 Const.stackDepth) (n : Nat) : (s.setStack k n).draws = s.draws := rfl
@[simp] theorem State.setStack_status (k : Vector Cell64 Const.stackDepth) (n : Nat) : (s.setStack k n).status = s.status := rfl
@[simp] theorem State.setStack_faultLog (k : Vector Cell64 Const.stackDepth) (n : Nat) : (s.setStack k n).faultLog = s.faultLog := rfl

@[simp] theorem State.setFb_mem (p : Pixels) : (s.setFb p).mem = s.mem := rfl
@[simp] theorem State.setFb_regs (p : Pixels) : (s.setFb p).regs = s.regs := rfl
@[simp] theorem State.setFb_index (p : Pixels) : (s.setFb p).index = s.index := rfl
@[simp] theorem State.setFb_pc (p : Pixels) : (s.setFb p).pc = s.pc := rfl
@[simp] theorem State.setFb_stack (p : Pixels) : (s.setFb p).stack = s.stack := rfl
@[simp] theorem State.setFb_sp (p : Pixels) : (s.setFb p).sp = s.sp := rfl
@[simp] theorem State.setFb_fb (p : Pixels) : (s.setFb p).fb = p := rfl
@[simp] theorem State.setFb_eb (p : Pixels) : (s.setFb p).eb = s.eb := rfl
@[simp] theorem State.setFb_redraw (p : Pixels) : (s.setFb p).redraw = s.redraw := rfl
@[simp] theorem State.setFb_dt (p : Pixels) : (s.setFb p).dt = s.dt := rfl
@[simp] theorem State.setFb_st (p : Pixels) : (s.setFb p).st = s.st := rfl
@[simp] theorem State.setFb_keys (p : Pixels) : (s.setFb p).keys = s.keys := rfl
@[simp] theorem State.setFb_mode (p : Pixels) : (s.setFb p).mode = s.mode := rfl
@[simp] theorem State.setFb_effect (p : Pixels) : (s.setFb p).effect = s.effect := rfl
@[simp] theorem State.setFb_effectFrames (p : Pixels) : (s.setFb p).effectFrames = s.effectFrames := rfl
@[simp] theorem State.setFb_paletteIndex (p : Pixels) : (s.setFb p).paletteIndex = s.paletteIndex := rfl
@[simp] theorem State.setFb_cfg (p : Pixels) : (s.setFb p).cfg = s.cfg := rfl
@[simp] theorem State.setFb_draws (p : Pixels) : (s.setFb p).draws = s.draws := rfl
@[simp] theorem State.setFb_status (p : Pixels) : (s.setFb p).status = s.status := rfl
@[simp] theorem State.setFb_faultLog (p : Pixels) : (s.setFb p).faultLog = s.faultLog := rfl

@[simp] theorem State.setEb_mem (p : Pixels) : (s.setEb p).mem = s.mem := rfl
@[simp] theorem State.setEb_regs (p : Pixels) : (s.setEb p).regs = s.regs := rfl
@[simp] theorem State.setEb_index (p : Pixels) : (s.setEb p).index = s.index := rfl
@[simp] theorem State.setEb_pc (p : Pixels) : (s.setEb p).pc = s.pc := rfl
@[simp] theorem State.setEb_stack (p : Pixels) : (s.setEb p).stack = s.stack := rfl
@[simp] theorem State.setEb_sp (p : Pixels) : (s.setEb p).sp = s.sp := rfl
@[simp] theorem State.setEb_fb (p : Pixels) : (s.setEb p).fb = s.fb := rfl
@[simp] theorem State.setEb_eb (p : Pixels) : (s.setEb p).eb = p := rfl
@[simp] theorem State.setEb_redraw (p : Pixels) : (s.setEb p).redraw = s.redraw := rfl
@[simp] theorem State.setEb_dt (p : Pixels) : (s.setEb p).dt = s.dt := rfl
@[simp] theorem State.setEb_st (p : Pixels) : (s.setEb p).st = s.st := rfl
@[simp] theorem State.setEb_keys (p : Pixels) : (s.setEb p).keys = s.keys := rfl
@[simp] theorem State.setEb_mode (p : Pixels) : (s.setEb p).mode = s.mode := rfl
@[simp] theorem State.setEb_effect (p : Pixels) : (s.setEb p).effect = s.effect := rfl
@[simp] theorem State.setEb_effectFrames (p : Pixels) : (s.setEb p).effectFrames = s.effectFrames := rfl
@[simp] theorem State.setEb_paletteIndex (p : Pixels) : (s.setEb p).paletteIndex = s.paletteIndex := rfl
@[simp] theorem State.setEb_cfg (p : Pixels) : (s.setEb p).cfg = s.cfg := rfl
@[simp] theorem State.setEb_draws (p : Pixels) : (s.setEb p).draws = s.draws := rfl
@[simp] theorem State.setEb_status (p : Pixels) : (s.setEb p).status = s.status := rfl
@[simp] theorem State.setEb_faultLog (p : Pixels) : (s.setEb p).faultLog = s.faultLog := rfl

@[simp] theorem State.setRedraw_mem (b : Bool) : (s.setRedraw b).mem = s.mem := rfl
@[simp] theorem State.setRedraw_regs (b : Bool) : (s.setRedraw b).regs = s.regs := rfl
@[simp] theorem State.setRedraw_index (b : Bool) : (s.setRedraw b).index = s.index := rfl
@[simp] theorem State.setRedraw_pc (b : Bool) : (s.setRedraw b).pc = s.pc := rfl
@[simp] theorem State.setRedraw_stack (b : Bool) : (s.setRedraw b).stack = s.stack := rfl
@[simp] theorem State.setRedraw_sp (b : Bool) : (s.setRedraw b).sp = s.sp := rfl
@[simp] theorem State.setRedraw_fb (b : Bool) : (s.setRedraw b).fb = s.fb := rfl
@[simp] theorem State.setRedraw_eb (b : Bool) : (s.setRedraw b).eb = s.eb := rfl
@[simp] theorem State.setRedraw_redraw (b : Bool) : (s.setRedraw b).redraw = b := rfl
@[simp] theorem State.setRedraw_dt (b : Bool) : (s.setRedraw b).dt = s.dt := rfl
@[simp] theorem State.setRedraw_st (b : Bool) : (s.setRedraw b).st = s.st := rfl
@[simp] theorem State.setRedraw_keys (b : Bool) : (s.setRedraw b).keys = s.keys := rfl
@[simp] theorem State.setRedraw_mode (b : Bool) : (s.setRedraw b).mode = s.mode := rfl
@[simp] theorem State.setRedraw_effect (b : Bool) : (s.setRedraw b).effect = s.effect := rfl
@[simp] theorem State.setRedraw_effectFrames (b : Bool) : (s.setRedraw b).effectFrames = s.effectFrames := rfl
@[simp] theorem State.setRedraw_paletteIndex (b : Bool) : (s.setRedraw b).paletteIndex = s.paletteIndex := rfl
@[simp] theorem State.setRedraw_cfg (b : Bool) : (s.setRedraw b).cfg = s.cfg := rfl
@[simp] theorem State.setRedraw_draws (b : Bool) : (s.setRedraw b).draws = s.draws := rfl
@[simp] theorem State.setRedraw_status (b : Bool) : (s.setRedraw b).status = s.status := rfl
@[simp] theorem State.setRedraw_faultLog (b : Bool) : (s.setRedraw b).faultLog = s.faultLog := rfl

@[simp] theorem State.setDt_mem (v : BitVec 8) : (s.setDt v).mem = s.mem := rfl
@[simp] theorem State.setDt_regs (v : BitVec 8) : (s.setDt v).regs = s.regs := rfl
@[simp] theorem State.setDt_index (v : BitVec 8) : (s.setDt v).index = s.index := rfl
@[simp] theorem State.setDt_pc (v : BitVec 8) : (s.setDt v).pc = s.pc := rfl
@[simp] theorem State.setDt_stack (v : BitVec 8) : (s.setDt v).stack = s.stack := rfl
@[simp] theorem State.setDt_sp (v : BitVec 8) : (s.setDt v).sp = s.sp := rfl
@[simp] theorem State.setDt_fb (v : BitVec 8) : (s.setDt v).fb = s.fb := rfl
@[simp] theorem State.setDt_eb (v : BitVec 8) : (s.setDt v).eb = s.eb := rfl
@[simp] theorem State.setDt_redraw (v : BitVec 8) : (s.setDt v).redraw = s.redraw := rfl
@[simp] theorem State.setDt_dt (v : BitVec 8) : (s.setDt v).dt = v := rfl
@[simp] theorem State.setDt_st (v : BitVec 8) : (s.setDt v).st = s.st := rfl
@[simp] theorem State.setDt_keys (v : BitVec 8) : (s.setDt v).keys = s.keys := rfl
@[simp] theorem State.setDt_mode (v : BitVec 8) : (s.setDt v).mode = s.mode := rfl
@[simp] theorem State.setDt_effect (v : BitVec 8) : (s.setDt v).effect = s.effect := rfl
@[simp] theorem State.setDt_effectFrames (v : BitVec 8) : (s.setDt v).effectFrames = s.effectFrames := rfl
@[simp] theorem State.setDt_paletteIndex (v : BitVec 8) : (s.setDt v).paletteIndex = s.paletteIndex := rfl
@[simp] theorem State.setDt_cfg (v : BitVec 8) : (s.setDt v).cfg = s.cfg := rfl
@[simp] theorem State.setDt_draws (v : BitVec 8) : (s.setDt v).draws = s.draws := rfl
@[simp] theorem State.setDt_status (v : BitVec 8) : (s.setDt v).status = s.status := rfl
@[simp] theorem State.setDt_faultLog (v : BitVec 8) : (s.setDt v).faultLog = s.faultLog := rfl

@[simp] theorem State.setSt_mem (v : BitVec 8) : (s.setSt v).mem = s.mem := rfl
@[simp] theorem State.setSt_regs (v : BitVec 8) : (s.setSt v).regs = s.regs := rfl
@[simp] theorem State.setSt_index (v : BitVec 8) : (s.setSt v).index = s.index := rfl
@[simp] theorem State.setSt_pc (v : BitVec 8) : (s.setSt v).pc = s.pc := rfl
@[simp] theorem State.setSt_stack (v : BitVec 8) : (s.setSt v).stack = s.stack := rfl
@[simp] theorem State.setSt_sp (v : BitVec 8) : (s.setSt v).sp = s.sp := rfl
@[simp] theorem State.setSt_fb (v : BitVec 8) : (s.setSt v).fb = s.fb := rfl
@[simp] theorem State.setSt_eb (v : BitVec 8) : (s.setSt v).eb = s.eb := rfl
@[simp] theorem State.setSt_redraw (v : BitVec 8) : (s.setSt v).redraw = s.redraw := rfl
@[simp] theorem State.setSt_dt (v : BitVec 8) : (s.setSt v).dt = s.dt := rfl
@[simp] theorem State.setSt_st (v : BitVec 8) : (s.setSt v).st = v := rfl
@[simp] theorem State.setSt_keys (v : BitVec 8) : (s.setSt v).keys = s.keys := rfl
@[simp] theorem State.setSt_mode (v : BitVec 8) : (s.setSt v).mode = s.mode := rfl
@[simp] theorem State.setSt_effect (v : BitVec 8) : (s.setSt v).effect = s.effect := rfl
@[simp] theorem State.setSt_effectFrames (v : BitVec 8) : (s.setSt v).effectFrames = s.effectFrames := rfl
@[simp] theorem State.setSt_paletteIndex (v : BitVec 8) : (s.setSt v).paletteIndex = s.paletteIndex := rfl
@[simp] theorem State.setSt_cfg (v : BitVec 8) : (s.setSt v).cfg = s.cfg := rfl
@[simp] theorem State.setSt_draws (v : BitVec 8) : (s.setSt v).draws = s.draws := rfl
@[simp] theorem State.setSt_status (v : BitVec 8) : (s.setSt v).status = s.status := rfl
@[simp] theorem State.setSt_faultLog (v : BitVec 8) : (s.setSt v).faultLog = s.faultLog := rfl

@[simp] theorem State.setKeys_mem (k : Vector Bool Const.nkeys) : (s.setKeys k).mem = s.mem := rfl
@[simp] theorem State.setKeys_regs (k : Vector Bool Const.nkeys) : (s.setKeys k).regs = s.regs := rfl
@[simp] theorem State.setKeys_index (k : Vector Bool Const.nkeys) : (s.setKeys k).index = s.index := rfl
@[simp] theorem State.setKeys_pc (k : Vector Bool Const.nkeys) : (s.setKeys k).pc = s.pc := rfl
@[simp] theorem State.setKeys_stack (k : Vector Bool Const.nkeys) : (s.setKeys k).stack = s.stack := rfl
@[simp] theorem State.setKeys_sp (k : Vector Bool Const.nkeys) : (s.setKeys k).sp = s.sp := rfl
@[simp] theorem State.setKeys_fb (k : Vector Bool Const.nkeys) : (s.setKeys k).fb = s.fb := rfl
@[simp] theorem State.setKeys_eb (k : Vector Bool Const.nkeys) : (s.setKeys k).eb = s.eb := rfl
@[simp] theorem State.setKeys_redraw (k : Vector Bool Const.nkeys) : (s.setKeys k).redraw = s.redraw := rfl
@[simp] theorem State.setKeys_dt (k : Vector Bool Const.nkeys) : (s.setKeys k).dt = s.dt := rfl
@[simp] theorem State.setKeys_st (k : Vector Bool Const.nkeys) : (s.setKeys k).st = s.st := rfl
@[simp] theorem State.setKeys_keys (k : Vector Bool Const.nkeys) : (s.setKeys k).keys = k := rfl
@[simp] theorem State.setKeys_mode (k : Vector Bool Const.nkeys) : (s.setKeys k).mode = s.mode := rfl
@[simp] theorem State.setKeys_effect (k : Vector Bool Const.nkeys) : (s.setKeys k).effect = s.effect := rfl
@[simp] theorem State.setKeys_effectFrames (k : Vector Bool Const.nkeys) : (s.setKeys k).effectFrames = s.effectFrames := rfl
@[simp] theorem State.setKeys_paletteIndex (k : Vector Bool Const.nkeys) : (s.setKeys k).paletteIndex = s.paletteIndex := rfl
@[simp] theorem State.setKeys_cfg (k : Vector Bool Const.nkeys) : (s.setKeys k).cfg = s.cfg := rfl
@[simp] theorem State.setKeys_draws (k : Vector Bool Const.nkeys) : (s.setKeys k).draws = s.draws := rfl
@[simp] theorem State.setKeys_status (k : Vector Bool Const.nkeys) : (s.setKeys k).status = s.status := rfl
@[simp] theorem State.setKeys_faultLog (k : Vector Bool Const.nkeys) : (s.setKeys k).faultLog = s.faultLog := rfl

@[simp] theorem State.putMode_mem (m : Mode) : (s.putMode m).mem = s.mem := rfl
@[simp] theorem State.putMode_regs (m : Mode) : (s.putMode m).regs = s.regs := rfl
@[simp] theorem State.putMode_index (m : Mode) : (s.putMode m).index = s.index := rfl
@[simp] theorem State.putMode_pc (m : Mode) : (s.putMode m).pc = s.pc := rfl
@[simp] theorem State.putMode_stack (m : Mode) : (s.putMode m).stack = s.stack := rfl
@[simp] theorem State.putMode_sp (m : Mode) : (s.putMode m).sp = s.sp := rfl
@[simp] theorem State.putMode_fb (m : Mode) : (s.putMode m).fb = s.fb := rfl
@[simp] theorem State.putMode_eb (m : Mode) : (s.putMode m).eb = s.eb := rfl
@[simp] theorem State.putMode_redraw (m : Mode) : (s.putMode m).redraw = s.redraw := rfl
@[simp] theorem State.putMode_dt (m : Mode) : (s.putMode m).dt = s.dt := rfl
@[simp] theorem State.putMode_st (m : Mode) : (s.putMode m).st = s.st := rfl
@[simp] theorem State.putMode_keys (m : Mode) : (s.putMode m).keys = s.keys := rfl
@[simp] theorem State.putMode_mode (m : Mode) : (s.putMode m).mode = m := rfl
@[simp] theorem State.putMode_effect (m : Mode) : (s.putMode m).effect = s.effect := rfl
@[simp] theorem State.putMode_effectFrames (m : Mode) : (s.putMode m).effectFrames = s.effectFrames := rfl
@[simp] theorem State.putMode_paletteIndex (m : Mode) : (s.putMode m).paletteIndex = s.paletteIndex := rfl
@[simp] theorem State.putMode_cfg (m : Mode) : (s.putMode m).cfg = s.cfg := rfl
@[simp] theorem State.putMode_draws (m : Mode) : (s.putMode m).draws = s.draws := rfl
@[simp] theorem State.putMode_status (m : Mode) : (s.putMode m).status = s.status := rfl
@[simp] theorem State.putMode_faultLog (m : Mode) : (s.putMode m).faultLog = s.faultLog := rfl

@[simp] theorem State.putEffect_mem (e : Effect) : (s.putEffect e).mem = s.mem := rfl
@[simp] theorem State.putEffect_regs (e : Effect) : (s.putEffect e).regs = s.regs := rfl
@[simp] theorem State.putEffect_index (e : Effect) : (s.putEffect e).index = s.index := rfl
@[simp] theorem State.putEffect_pc (e : Effect) : (s.putEffect e).pc = s.pc := rfl
@[simp] theorem State.putEffect_stack (e : Effect) : (s.putEffect e).stack = s.stack := rfl
@[simp] theorem State.putEffect_sp (e : Effect) : (s.putEffect e).sp = s.sp := rfl
@[simp] theorem State.putEffect_fb (e : Effect) : (s.putEffect e).fb = s.fb := rfl
@[simp] theorem State.putEffect_eb (e : Effect) : (s.putEffect e).eb = s.eb := rfl
@[simp] theorem State.putEffect_redraw (e : Effect) : (s.putEffect e).redraw = s.redraw := rfl
@[simp] theorem State.putEffect_dt (e : Effect) : (s.putEffect e).dt = s.dt := rfl
@[simp] theorem State.putEffect_st (e : Effect) : (s.putEffect e).st = s.st := rfl
@[simp] theorem State.putEffect_keys (e : Effect) : (s.putEffect e).keys = s.keys := rfl
@[simp] theorem State.putEffect_mode (e : Effect) : (s.putEffect e).mode = s.mode := rfl
@[simp] theorem State.putEffect_effect (e : Effect) : (s.putEffect e).effect = e := rfl
@[simp] theorem State.putEffect_effectFrames (e : Effect) : (s.putEffect e).effectFrames = s.effectFrames := rfl
@[simp] theorem State.putEffect_paletteIndex (e : Effect) : (s.putEffect e).paletteIndex = s.paletteIndex := rfl
@[simp] theorem State.putEffect_cfg (e : Effect) : (s.putEffect e).cfg = s.cfg := rfl
@[simp] theorem State.putEffect_draws (e : Effect) : (s.putEffect e).draws = s.draws := rfl
@[simp] theorem State.putEffect_status (e : Effect) : (s.putEffect e).status = s.status := rfl
@[simp] theorem State.putEffect_faultLog (e : Effect) : (s.putEffect e).faultLog = s.faultLog := rfl

@[simp] theorem State.setCycle_mem (f p : Nat) : (s.setCycle f p).mem = s.mem := rfl
@[simp] theorem State.setCycle_regs (f p : Nat) : (s.setCycle f p).regs = s.regs := rfl
@[simp] theorem State.setCycle_index (f p : Nat) : (s.setCycle f p).index = s.index := rfl
@[simp] theorem State.setCycle_pc (f p : Nat) : (s.setCycle f p).pc = s.pc := rfl
@[simp] theorem State.setCycle_stack (f p : Nat) : (s.setCycle f p).stack = s.stack := rfl
@[simp] theorem State.setCycle_sp (f p : Nat) : (s.setCycle f p).sp = s.sp := rfl
@[simp] theorem State.setCycle_fb (f p : Nat) : (s.setCycle f p).fb = s.fb := rfl
@[simp] theorem State.setCycle_eb (f p : Nat) : (s.setCycle f p).eb = s.eb := rfl
@[simp] theorem State.setCycle_redraw (f p : Nat) : (s.setCycle f p).redraw = s.redraw := rfl
@[simp] theorem State.setCycle_dt (f p : Nat) : (s.setCycle f p).dt = s.dt := rfl
@[simp] theorem State.setCycle_st (f p : Nat) : (s.setCycle f p).st = s.st := rfl
@[simp] theorem State.setCycle_keys (f p : Nat) : (s.setCycle f p).keys = s.keys := rfl
@[simp] theorem State.setCycle_mode (f p : Nat) : (s.setCycle f p).mode = s.mode := rfl
@[simp] theorem State.setCycle_effect (f p : Nat) : (s.setCycle f p).effect = s.effect := rfl
@[simp] theorem State.setCycle_effectFrames (f p : Nat) : (s.setCycle f p).effectFrames = f := rfl
@[simp] theorem State.setCycle_paletteIndex (f p : Nat) : (s.setCycle f p).paletteIndex = p := rfl
@[simp] theorem State.setCycle_cfg (f p : Nat) : (s.setCycle f p).cfg = s.cfg := rfl
@[simp] theorem State.setCycle_draws (f p : Nat) : (s.setCycle f p).draws = s.draws := rfl
@[simp] theorem State.setCycle_status (f p : Nat) : (s.setCycle f p).status = s.status := rfl
@[simp] theorem State.setCycle_faultLog (f p : Nat) : (s.setCycle f p).faultLog = s.faultLog := rfl

@[simp] theorem State.setDraws_mem (n : Nat) : (s.setDraws n).mem = s.mem := rfl
@[simp] theorem State.setDraws_regs (n : Nat) : (s.setDraws n).regs = s.regs := rfl
@[simp] theorem State.setDraws_index (n : Nat) : (s.setDraws n).index = s.index := rfl
@[simp] theorem State.setDraws_pc (n : Nat) : (s.setDraws n).pc = s.pc := rfl
@[simp] theorem State.setDraws_stack (n : Nat) : (s.setDraws n).stack = s.stack := rfl
@[simp] theorem State.setDraws_sp (n : Nat) : (s.setDraws n).sp = s.sp := rfl
@[simp] theorem State.setDraws_fb (n : Nat) : (s.setDraws n).fb = s.fb := rfl
@[simp] theorem State.setDraws_eb (n : Nat) : (s.setDraws n).eb = s.eb := rfl
@[simp] theorem State.setDraws_redraw (n : Nat) : (s.setDraws n).redraw = s.redraw := rfl
@[simp] theorem State.setDraws_dt (n : Nat) : (s.setDraws n).dt = s.dt := rfl
@[simp] theorem State.setDraws_st (n : Nat) : (s.setDraws n).st = s.st := rfl
@[simp] theorem State.setDraws_keys (n : Nat) : (s.setDraws n).keys = s.keys := rfl
@[simp] theorem State.setDraws_mode (n : Nat) : (s.setDraws n).mode = s.mode := rfl
@[simp] theorem State.setDraws_effect (n : Nat) : (s.setDraws n).effect = s.effect := rfl
@[simp] theorem State.setDraws_effectFrames (n : Nat) : (s.setDraws n).effectFrames = s.effectFrames := rfl
@[simp] theorem State.setDraws_paletteIndex (n : Nat) : (s.setDraws n).paletteIndex = s.paletteIndex := rfl
@[simp] theorem State.setDraws_cfg (n : Nat) : (s.setDraws n).cfg = s.cfg := rfl
@[simp] theorem State.setDraws_draws (n : Nat) : (s.setDraws n).draws = n := rfl
@[simp] theorem State.setDraws_status (n : Nat) : (s.setDraws n).status = s.status := rfl
@[simp] theorem State.setDraws_faultLog (n : Nat) : (s.setDraws n).faultLog = s.faultLog := rfl

@[simp] theorem State.setStatus_mem (t : Status) : (s.setStatus t).mem = s.mem := rfl
@[simp] theorem State.setStatus_regs (t : Status) : (s.setStatus t).regs = s.regs := rfl
@[simp] theorem State.setStatus_index (t : Status) : (s.setStatus t).index = s.index := rfl
@[simp] theorem State.setStatus_pc (t : Status) : (s.setStatus t).pc = s.pc := rfl
@[simp] theorem State.setStatus_stack (t : Status) : (s.setStatus t).stack = s.stack := rfl
@[simp] theorem State.setStatus_sp (t : Status) : (s.setStatus t).sp = s.sp := rfl
@[simp] theorem State.setStatus_fb (t : Status) : (s.setStatus t).fb = s.fb := rfl
@[simp] theorem State.setStatus_eb (t : Status) : (s.setStatus t).eb = s.eb := rfl
@[simp] theorem State.setStatus_redraw (t : Status) : (s.setStatus t).redraw = s.redraw := rfl
@[simp] theorem State.setStatus_dt (t : Status) : (s.setStatus t).dt = s.dt := rfl
@[simp] theorem State.setStatus_st (t : Status) : (s.setStatus t).st = s.st := rfl
@[simp] theorem State.setStatus_keys (t : Status) : (s.setStatus t).keys = s.keys := rfl
@[simp] theorem State.setStatus_mode (t : Status) : (s.setStatus t).mode = s.mode := rfl
@[simp] theorem State.setStatus_effect (t : Status) : (s.setStatus t).effect = s.effect := rfl
@[simp] theorem State.setStatus_effectFrames (t : Status) : (s.setStatus t).effectFrames = s.effectFrames := rfl
@[simp] theorem State.setStatus_paletteIndex (t : Status) : (s.setStatus t).paletteIndex = s.paletteIndex := rfl
@[simp] theorem State.setStatus_cfg (t : Status) : (s.setStatus t).cfg = s.cfg := rfl
@[simp] theorem State.setStatus_draws (t : Status) : (s.setStatus t).draws = s.draws := rfl
@[simp] theorem State.setStatus_status (t : Status) : (s.setStatus t).status = t := rfl
@[simp] theorem State.setStatus_faultLog (t : Status) : (s.setStatus t).faultLog = s.faultLog := rfl

@[simp] theorem State.setFaultLog_mem (l : List ErrorCond) : (s.setFaultLog l).mem = s.mem := rfl
@[simp] theorem State.setFaultLog_regs (l : List ErrorCond) : (s.setFaultLog l).regs = s.regs := rfl
@[simp] theorem State.setFaultLog_index (l : List ErrorCond) : (s.setFaultLog l).index = s.index := rfl
@[simp] theorem State.setFaultLog_pc (l : List ErrorCond) : (s.setFaultLog l).pc = s.pc := rfl
@[simp] theorem State.setFaultLog_stack (l : List ErrorCond) : (s.setFaultLog l).stack = s.stack := rfl
@[simp] theorem State.setFaultLog_sp (l : List ErrorCond) : (s.setFaultLog l).sp = s.sp := rfl
@[simp] theorem State.setFaultLog_fb (l : List ErrorCond) : (s.setFaultLog l).fb = s.fb := rfl
@[simp] theorem State.setFaultLog_eb (l : List ErrorCond) : (s.setFaultLog l).eb = s.eb := rfl
@[simp] theorem State.setFaultLog_redraw (l : List ErrorCond) : (s.setFaultLog l).redraw = s.redraw := rfl
@[simp] theorem State.setFaultLog_dt (l : List ErrorCond) : (s.setFaultLog l).dt = s.dt := rfl
@[simp] theorem State.setFaultLog_st (l : List ErrorCond) : (s.setFaultLog l).st = s.st := rfl
@[simp] theorem State.setFaultLog_keys (l : List ErrorCond) : (s.setFaultLog l).keys = s.keys := rfl
@[simp] theorem State.setFaultLog_mode (l : List ErrorCond) : (s.setFaultLog l).mode = s.mode := rfl
@[simp] theorem State.setFaultLog_effect (l : List ErrorCond) : (s.setFaultLog l).effect = s.effect := rfl
@[simp] theorem State.setFaultLog_effectFrames (l : List ErrorCond) : (s.setFaultLog l).effectFrames = s.effectFrames := rfl
@[simp] theorem State.setFaultLog_paletteIndex (l : List ErrorCond) : (s.setFaultLog l).paletteIndex = s.paletteIndex := rfl
@[simp] theorem State.setFaultLog_cfg (l : List ErrorCond) : (s.setFaultLog l).cfg = s.cfg := rfl
@[simp] theorem State.setFaultLog_draws (l : List ErrorCond) : (s.setFaultLog l).draws = s.draws := rfl
@[simp] theorem State.setFaultLog_status (l : List ErrorCond) : (s.setFaultLog l).status = s.status := rfl
@[simp] theorem State.setFaultLog_faultLog (l : List ErrorCond) : (s.setFaultLog l).faultLog = l := rfl

end Sys2Proof.Machine
end

