-- ==== Sys2Proof/Laws/Frames.lean ====
section
/-!
SUPPORT. Laws/Frames.lean: the fields that each shared operation leaves as they are.
-/

namespace Sys2Proof.Machine

variable (s : State)

@[simp] theorem State.setReg_mem (i : Fin Const.physRegs) (v : Nat) : (s.setReg i v).mem = s.mem := rfl
@[simp] theorem State.setReg_index (i : Fin Const.physRegs) (v : Nat) : (s.setReg i v).index = s.index := rfl
@[simp] theorem State.setReg_pc (i : Fin Const.physRegs) (v : Nat) : (s.setReg i v).pc = s.pc := rfl
@[simp] theorem State.setReg_stack (i : Fin Const.physRegs) (v : Nat) : (s.setReg i v).stack = s.stack := rfl
@[simp] theorem State.setReg_sp (i : Fin Const.physRegs) (v : Nat) : (s.setReg i v).sp = s.sp := rfl
@[simp] theorem State.setReg_fb (i : Fin Const.physRegs) (v : Nat) : (s.setReg i v).fb = s.fb := rfl
@[simp] theorem State.setReg_eb (i : Fin Const.physRegs) (v : Nat) : (s.setReg i v).eb = s.eb := rfl
@[simp] theorem State.setReg_redraw (i : Fin Const.physRegs) (v : Nat) : (s.setReg i v).redraw = s.redraw := rfl
@[simp] theorem State.setReg_dt (i : Fin Const.physRegs) (v : Nat) : (s.setReg i v).dt = s.dt := rfl
@[simp] theorem State.setReg_st (i : Fin Const.physRegs) (v : Nat) : (s.setReg i v).st = s.st := rfl
@[simp] theorem State.setReg_keys (i : Fin Const.physRegs) (v : Nat) : (s.setReg i v).keys = s.keys := rfl
@[simp] theorem State.setReg_mode (i : Fin Const.physRegs) (v : Nat) : (s.setReg i v).mode = s.mode := rfl
@[simp] theorem State.setReg_effect (i : Fin Const.physRegs) (v : Nat) : (s.setReg i v).effect = s.effect := rfl
@[simp] theorem State.setReg_effectFrames (i : Fin Const.physRegs) (v : Nat) : (s.setReg i v).effectFrames = s.effectFrames := rfl
@[simp] theorem State.setReg_paletteIndex (i : Fin Const.physRegs) (v : Nat) : (s.setReg i v).paletteIndex = s.paletteIndex := rfl
@[simp] theorem State.setReg_cfg (i : Fin Const.physRegs) (v : Nat) : (s.setReg i v).cfg = s.cfg := rfl
@[simp] theorem State.setReg_draws (i : Fin Const.physRegs) (v : Nat) : (s.setReg i v).draws = s.draws := rfl
@[simp] theorem State.setReg_status (i : Fin Const.physRegs) (v : Nat) : (s.setReg i v).status = s.status := rfl
@[simp] theorem State.setReg_faultLog (i : Fin Const.physRegs) (v : Nat) : (s.setReg i v).faultLog = s.faultLog := rfl

@[simp] theorem State.setFlag_mem (v : Nat) : (s.setFlag v).mem = s.mem := rfl
@[simp] theorem State.setFlag_index (v : Nat) : (s.setFlag v).index = s.index := rfl
@[simp] theorem State.setFlag_pc (v : Nat) : (s.setFlag v).pc = s.pc := rfl
@[simp] theorem State.setFlag_stack (v : Nat) : (s.setFlag v).stack = s.stack := rfl
@[simp] theorem State.setFlag_sp (v : Nat) : (s.setFlag v).sp = s.sp := rfl
@[simp] theorem State.setFlag_fb (v : Nat) : (s.setFlag v).fb = s.fb := rfl
@[simp] theorem State.setFlag_eb (v : Nat) : (s.setFlag v).eb = s.eb := rfl
@[simp] theorem State.setFlag_redraw (v : Nat) : (s.setFlag v).redraw = s.redraw := rfl
@[simp] theorem State.setFlag_dt (v : Nat) : (s.setFlag v).dt = s.dt := rfl
@[simp] theorem State.setFlag_st (v : Nat) : (s.setFlag v).st = s.st := rfl
@[simp] theorem State.setFlag_keys (v : Nat) : (s.setFlag v).keys = s.keys := rfl
@[simp] theorem State.setFlag_mode (v : Nat) : (s.setFlag v).mode = s.mode := rfl
@[simp] theorem State.setFlag_effect (v : Nat) : (s.setFlag v).effect = s.effect := rfl
@[simp] theorem State.setFlag_effectFrames (v : Nat) : (s.setFlag v).effectFrames = s.effectFrames := rfl
@[simp] theorem State.setFlag_paletteIndex (v : Nat) : (s.setFlag v).paletteIndex = s.paletteIndex := rfl
@[simp] theorem State.setFlag_cfg (v : Nat) : (s.setFlag v).cfg = s.cfg := rfl
@[simp] theorem State.setFlag_draws (v : Nat) : (s.setFlag v).draws = s.draws := rfl
@[simp] theorem State.setFlag_status (v : Nat) : (s.setFlag v).status = s.status := rfl
@[simp] theorem State.setFlag_faultLog (v : Nat) : (s.setFlag v).faultLog = s.faultLog := rfl

@[simp] theorem State.setResultFlag_mem (i : Fin Const.physRegs) (r f : Nat) : (s.setResultFlag i r f).mem = s.mem := rfl
@[simp] theorem State.setResultFlag_index (i : Fin Const.physRegs) (r f : Nat) : (s.setResultFlag i r f).index = s.index := rfl
@[simp] theorem State.setResultFlag_pc (i : Fin Const.physRegs) (r f : Nat) : (s.setResultFlag i r f).pc = s.pc := rfl
@[simp] theorem State.setResultFlag_stack (i : Fin Const.physRegs) (r f : Nat) : (s.setResultFlag i r f).stack = s.stack := rfl
@[simp] theorem State.setResultFlag_sp (i : Fin Const.physRegs) (r f : Nat) : (s.setResultFlag i r f).sp = s.sp := rfl
@[simp] theorem State.setResultFlag_fb (i : Fin Const.physRegs) (r f : Nat) : (s.setResultFlag i r f).fb = s.fb := rfl
@[simp] theorem State.setResultFlag_eb (i : Fin Const.physRegs) (r f : Nat) : (s.setResultFlag i r f).eb = s.eb := rfl
@[simp] theorem State.setResultFlag_redraw (i : Fin Const.physRegs) (r f : Nat) : (s.setResultFlag i r f).redraw = s.redraw := rfl
@[simp] theorem State.setResultFlag_dt (i : Fin Const.physRegs) (r f : Nat) : (s.setResultFlag i r f).dt = s.dt := rfl
@[simp] theorem State.setResultFlag_st (i : Fin Const.physRegs) (r f : Nat) : (s.setResultFlag i r f).st = s.st := rfl
@[simp] theorem State.setResultFlag_keys (i : Fin Const.physRegs) (r f : Nat) : (s.setResultFlag i r f).keys = s.keys := rfl
@[simp] theorem State.setResultFlag_mode (i : Fin Const.physRegs) (r f : Nat) : (s.setResultFlag i r f).mode = s.mode := rfl
@[simp] theorem State.setResultFlag_effect (i : Fin Const.physRegs) (r f : Nat) : (s.setResultFlag i r f).effect = s.effect := rfl
@[simp] theorem State.setResultFlag_effectFrames (i : Fin Const.physRegs) (r f : Nat) : (s.setResultFlag i r f).effectFrames = s.effectFrames := rfl
@[simp] theorem State.setResultFlag_paletteIndex (i : Fin Const.physRegs) (r f : Nat) : (s.setResultFlag i r f).paletteIndex = s.paletteIndex := rfl
@[simp] theorem State.setResultFlag_cfg (i : Fin Const.physRegs) (r f : Nat) : (s.setResultFlag i r f).cfg = s.cfg := rfl
@[simp] theorem State.setResultFlag_draws (i : Fin Const.physRegs) (r f : Nat) : (s.setResultFlag i r f).draws = s.draws := rfl
@[simp] theorem State.setResultFlag_status (i : Fin Const.physRegs) (r f : Nat) : (s.setResultFlag i r f).status = s.status := rfl
@[simp] theorem State.setResultFlag_faultLog (i : Fin Const.physRegs) (r f : Nat) : (s.setResultFlag i r f).faultLog = s.faultLog := rfl

@[simp] theorem State.setV_mem (x : RegField) (v : Nat) : (s.setV x v).mem = s.mem := rfl
@[simp] theorem State.setV_index (x : RegField) (v : Nat) : (s.setV x v).index = s.index := rfl
@[simp] theorem State.setV_pc (x : RegField) (v : Nat) : (s.setV x v).pc = s.pc := rfl
@[simp] theorem State.setV_stack (x : RegField) (v : Nat) : (s.setV x v).stack = s.stack := rfl
@[simp] theorem State.setV_sp (x : RegField) (v : Nat) : (s.setV x v).sp = s.sp := rfl
@[simp] theorem State.setV_fb (x : RegField) (v : Nat) : (s.setV x v).fb = s.fb := rfl
@[simp] theorem State.setV_eb (x : RegField) (v : Nat) : (s.setV x v).eb = s.eb := rfl
@[simp] theorem State.setV_redraw (x : RegField) (v : Nat) : (s.setV x v).redraw = s.redraw := rfl
@[simp] theorem State.setV_dt (x : RegField) (v : Nat) : (s.setV x v).dt = s.dt := rfl
@[simp] theorem State.setV_st (x : RegField) (v : Nat) : (s.setV x v).st = s.st := rfl
@[simp] theorem State.setV_keys (x : RegField) (v : Nat) : (s.setV x v).keys = s.keys := rfl
@[simp] theorem State.setV_mode (x : RegField) (v : Nat) : (s.setV x v).mode = s.mode := rfl
@[simp] theorem State.setV_effect (x : RegField) (v : Nat) : (s.setV x v).effect = s.effect := rfl
@[simp] theorem State.setV_effectFrames (x : RegField) (v : Nat) : (s.setV x v).effectFrames = s.effectFrames := rfl
@[simp] theorem State.setV_paletteIndex (x : RegField) (v : Nat) : (s.setV x v).paletteIndex = s.paletteIndex := rfl
@[simp] theorem State.setV_cfg (x : RegField) (v : Nat) : (s.setV x v).cfg = s.cfg := rfl
@[simp] theorem State.setV_draws (x : RegField) (v : Nat) : (s.setV x v).draws = s.draws := rfl
@[simp] theorem State.setV_status (x : RegField) (v : Nat) : (s.setV x v).status = s.status := rfl
@[simp] theorem State.setV_faultLog (x : RegField) (v : Nat) : (s.setV x v).faultLog = s.faultLog := rfl

@[simp] theorem State.setIndexNat_mem (v : Nat) : (s.setIndexNat v).mem = s.mem := rfl
@[simp] theorem State.setIndexNat_regs (v : Nat) : (s.setIndexNat v).regs = s.regs := rfl
@[simp] theorem State.setIndexNat_pc (v : Nat) : (s.setIndexNat v).pc = s.pc := rfl
@[simp] theorem State.setIndexNat_stack (v : Nat) : (s.setIndexNat v).stack = s.stack := rfl
@[simp] theorem State.setIndexNat_sp (v : Nat) : (s.setIndexNat v).sp = s.sp := rfl
@[simp] theorem State.setIndexNat_fb (v : Nat) : (s.setIndexNat v).fb = s.fb := rfl
@[simp] theorem State.setIndexNat_eb (v : Nat) : (s.setIndexNat v).eb = s.eb := rfl
@[simp] theorem State.setIndexNat_redraw (v : Nat) : (s.setIndexNat v).redraw = s.redraw := rfl
@[simp] theorem State.setIndexNat_dt (v : Nat) : (s.setIndexNat v).dt = s.dt := rfl
@[simp] theorem State.setIndexNat_st (v : Nat) : (s.setIndexNat v).st = s.st := rfl
@[simp] theorem State.setIndexNat_keys (v : Nat) : (s.setIndexNat v).keys = s.keys := rfl
@[simp] theorem State.setIndexNat_mode (v : Nat) : (s.setIndexNat v).mode = s.mode := rfl
@[simp] theorem State.setIndexNat_effect (v : Nat) : (s.setIndexNat v).effect = s.effect := rfl
@[simp] theorem State.setIndexNat_effectFrames (v : Nat) : (s.setIndexNat v).effectFrames = s.effectFrames := rfl
@[simp] theorem State.setIndexNat_paletteIndex (v : Nat) : (s.setIndexNat v).paletteIndex = s.paletteIndex := rfl
@[simp] theorem State.setIndexNat_cfg (v : Nat) : (s.setIndexNat v).cfg = s.cfg := rfl
@[simp] theorem State.setIndexNat_draws (v : Nat) : (s.setIndexNat v).draws = s.draws := rfl
@[simp] theorem State.setIndexNat_status (v : Nat) : (s.setIndexNat v).status = s.status := rfl
@[simp] theorem State.setIndexNat_faultLog (v : Nat) : (s.setIndexNat v).faultLog = s.faultLog := rfl

@[simp] theorem State.setPcNat_mem (v : Nat) : (s.setPcNat v).mem = s.mem := rfl
@[simp] theorem State.setPcNat_regs (v : Nat) : (s.setPcNat v).regs = s.regs := rfl
@[simp] theorem State.setPcNat_index (v : Nat) : (s.setPcNat v).index = s.index := rfl
@[simp] theorem State.setPcNat_stack (v : Nat) : (s.setPcNat v).stack = s.stack := rfl
@[simp] theorem State.setPcNat_sp (v : Nat) : (s.setPcNat v).sp = s.sp := rfl
@[simp] theorem State.setPcNat_fb (v : Nat) : (s.setPcNat v).fb = s.fb := rfl
@[simp] theorem State.setPcNat_eb (v : Nat) : (s.setPcNat v).eb = s.eb := rfl
@[simp] theorem State.setPcNat_redraw (v : Nat) : (s.setPcNat v).redraw = s.redraw := rfl
@[simp] theorem State.setPcNat_dt (v : Nat) : (s.setPcNat v).dt = s.dt := rfl
@[simp] theorem State.setPcNat_st (v : Nat) : (s.setPcNat v).st = s.st := rfl
@[simp] theorem State.setPcNat_keys (v : Nat) : (s.setPcNat v).keys = s.keys := rfl
@[simp] theorem State.setPcNat_mode (v : Nat) : (s.setPcNat v).mode = s.mode := rfl
@[simp] theorem State.setPcNat_effect (v : Nat) : (s.setPcNat v).effect = s.effect := rfl
@[simp] theorem State.setPcNat_effectFrames (v : Nat) : (s.setPcNat v).effectFrames = s.effectFrames := rfl
@[simp] theorem State.setPcNat_paletteIndex (v : Nat) : (s.setPcNat v).paletteIndex = s.paletteIndex := rfl
@[simp] theorem State.setPcNat_cfg (v : Nat) : (s.setPcNat v).cfg = s.cfg := rfl
@[simp] theorem State.setPcNat_draws (v : Nat) : (s.setPcNat v).draws = s.draws := rfl
@[simp] theorem State.setPcNat_status (v : Nat) : (s.setPcNat v).status = s.status := rfl
@[simp] theorem State.setPcNat_faultLog (v : Nat) : (s.setPcNat v).faultLog = s.faultLog := rfl

@[simp] theorem State.skip_mem : (s.skip).mem = s.mem := rfl
@[simp] theorem State.skip_regs : (s.skip).regs = s.regs := rfl
@[simp] theorem State.skip_index : (s.skip).index = s.index := rfl
@[simp] theorem State.skip_stack : (s.skip).stack = s.stack := rfl
@[simp] theorem State.skip_sp : (s.skip).sp = s.sp := rfl
@[simp] theorem State.skip_fb : (s.skip).fb = s.fb := rfl
@[simp] theorem State.skip_eb : (s.skip).eb = s.eb := rfl
@[simp] theorem State.skip_redraw : (s.skip).redraw = s.redraw := rfl
@[simp] theorem State.skip_dt : (s.skip).dt = s.dt := rfl
@[simp] theorem State.skip_st : (s.skip).st = s.st := rfl
@[simp] theorem State.skip_keys : (s.skip).keys = s.keys := rfl
@[simp] theorem State.skip_mode : (s.skip).mode = s.mode := rfl
@[simp] theorem State.skip_effect : (s.skip).effect = s.effect := rfl
@[simp] theorem State.skip_effectFrames : (s.skip).effectFrames = s.effectFrames := rfl
@[simp] theorem State.skip_paletteIndex : (s.skip).paletteIndex = s.paletteIndex := rfl
@[simp] theorem State.skip_cfg : (s.skip).cfg = s.cfg := rfl
@[simp] theorem State.skip_draws : (s.skip).draws = s.draws := rfl
@[simp] theorem State.skip_status : (s.skip).status = s.status := rfl
@[simp] theorem State.skip_faultLog : (s.skip).faultLog = s.faultLog := rfl

@[simp] theorem State.writeByte_regs (a : Nat) (v : Byte) : (s.writeByte a v).regs = s.regs := rfl
@[simp] theorem State.writeByte_index (a : Nat) (v : Byte) : (s.writeByte a v).index = s.index := rfl
@[simp] theorem State.writeByte_pc (a : Nat) (v : Byte) : (s.writeByte a v).pc = s.pc := rfl
@[simp] theorem State.writeByte_stack (a : Nat) (v : Byte) : (s.writeByte a v).stack = s.stack := rfl
@[simp] theorem State.writeByte_sp (a : Nat) (v : Byte) : (s.writeByte a v).sp = s.sp := rfl
@[simp] theorem State.writeByte_fb (a : Nat) (v : Byte) : (s.writeByte a v).fb = s.fb := rfl
@[simp] theorem State.writeByte_eb (a : Nat) (v : Byte) : (s.writeByte a v).eb = s.eb := rfl
@[simp] theorem State.writeByte_redraw (a : Nat) (v : Byte) : (s.writeByte a v).redraw = s.redraw := rfl
@[simp] theorem State.writeByte_dt (a : Nat) (v : Byte) : (s.writeByte a v).dt = s.dt := rfl
@[simp] theorem State.writeByte_st (a : Nat) (v : Byte) : (s.writeByte a v).st = s.st := rfl
@[simp] theorem State.writeByte_keys (a : Nat) (v : Byte) : (s.writeByte a v).keys = s.keys := rfl
@[simp] theorem State.writeByte_mode (a : Nat) (v : Byte) : (s.writeByte a v).mode = s.mode := rfl
@[simp] theorem State.writeByte_effect (a : Nat) (v : Byte) : (s.writeByte a v).effect = s.effect := rfl
@[simp] theorem State.writeByte_effectFrames (a : Nat) (v : Byte) : (s.writeByte a v).effectFrames = s.effectFrames := rfl
@[simp] theorem State.writeByte_paletteIndex (a : Nat) (v : Byte) : (s.writeByte a v).paletteIndex = s.paletteIndex := rfl
@[simp] theorem State.writeByte_cfg (a : Nat) (v : Byte) : (s.writeByte a v).cfg = s.cfg := rfl
@[simp] theorem State.writeByte_draws (a : Nat) (v : Byte) : (s.writeByte a v).draws = s.draws := rfl
@[simp] theorem State.writeByte_status (a : Nat) (v : Byte) : (s.writeByte a v).status = s.status := rfl
@[simp] theorem State.writeByte_faultLog (a : Nat) (v : Byte) : (s.writeByte a v).faultLog = s.faultLog := rfl

@[simp] theorem State.push_mem (v : Cell64) : (s.push v).mem = s.mem := rfl
@[simp] theorem State.push_regs (v : Cell64) : (s.push v).regs = s.regs := rfl
@[simp] theorem State.push_index (v : Cell64) : (s.push v).index = s.index := rfl
@[simp] theorem State.push_pc (v : Cell64) : (s.push v).pc = s.pc := rfl
@[simp] theorem State.push_fb (v : Cell64) : (s.push v).fb = s.fb := rfl
@[simp] theorem State.push_eb (v : Cell64) : (s.push v).eb = s.eb := rfl
@[simp] theorem State.push_redraw (v : Cell64) : (s.push v).redraw = s.redraw := rfl
@[simp] theorem State.push_dt (v : Cell64) : (s.push v).dt = s.dt := rfl
@[simp] theorem State.push_st (v : Cell64) : (s.push v).st = s.st := rfl
@[simp] theorem State.push_keys (v : Cell64) : (s.push v).keys = s.keys := rfl
@[simp] theorem State.push_mode (v : Cell64) : (s.push v).mode = s.mode := rfl
@[simp] theorem State.push_effect (v : Cell64) : (s.push v).effect = s.effect := rfl
@[simp] theorem State.push_effectFrames (v : Cell64) : (s.push v).effectFrames = s.effectFrames := rfl
@[simp] theorem State.push_paletteIndex (v : Cell64) : (s.push v).paletteIndex = s.paletteIndex := rfl
@[simp] theorem State.push_cfg (v : Cell64) : (s.push v).cfg = s.cfg := rfl
@[simp] theorem State.push_draws (v : Cell64) : (s.push v).draws = s.draws := rfl
@[simp] theorem State.push_status (v : Cell64) : (s.push v).status = s.status := rfl
@[simp] theorem State.push_faultLog (v : Cell64) : (s.push v).faultLog = s.faultLog := rfl

@[simp] theorem State.drop_mem : (s.drop).mem = s.mem := rfl
@[simp] theorem State.drop_regs : (s.drop).regs = s.regs := rfl
@[simp] theorem State.drop_index : (s.drop).index = s.index := rfl
@[simp] theorem State.drop_pc : (s.drop).pc = s.pc := rfl
@[simp] theorem State.drop_stack : (s.drop).stack = s.stack := rfl
@[simp] theorem State.drop_fb : (s.drop).fb = s.fb := rfl
@[simp] theorem State.drop_eb : (s.drop).eb = s.eb := rfl
@[simp] theorem State.drop_redraw : (s.drop).redraw = s.redraw := rfl
@[simp] theorem State.drop_dt : (s.drop).dt = s.dt := rfl
@[simp] theorem State.drop_st : (s.drop).st = s.st := rfl
@[simp] theorem State.drop_keys : (s.drop).keys = s.keys := rfl
@[simp] theorem State.drop_mode : (s.drop).mode = s.mode := rfl
@[simp] theorem State.drop_effect : (s.drop).effect = s.effect := rfl
@[simp] theorem State.drop_effectFrames : (s.drop).effectFrames = s.effectFrames := rfl
@[simp] theorem State.drop_paletteIndex : (s.drop).paletteIndex = s.paletteIndex := rfl
@[simp] theorem State.drop_cfg : (s.drop).cfg = s.cfg := rfl
@[simp] theorem State.drop_draws : (s.drop).draws = s.draws := rfl
@[simp] theorem State.drop_status : (s.drop).status = s.status := rfl
@[simp] theorem State.drop_faultLog : (s.drop).faultLog = s.faultLog := rfl

@[simp] theorem State.drawn_mem : (s.drawn).mem = s.mem := rfl
@[simp] theorem State.drawn_regs : (s.drawn).regs = s.regs := rfl
@[simp] theorem State.drawn_index : (s.drawn).index = s.index := rfl
@[simp] theorem State.drawn_pc : (s.drawn).pc = s.pc := rfl
@[simp] theorem State.drawn_stack : (s.drawn).stack = s.stack := rfl
@[simp] theorem State.drawn_sp : (s.drawn).sp = s.sp := rfl
@[simp] theorem State.drawn_fb : (s.drawn).fb = s.fb := rfl
@[simp] theorem State.drawn_eb : (s.drawn).eb = s.eb := rfl
@[simp] theorem State.drawn_redraw : (s.drawn).redraw = s.redraw := rfl
@[simp] theorem State.drawn_dt : (s.drawn).dt = s.dt := rfl
@[simp] theorem State.drawn_st : (s.drawn).st = s.st := rfl
@[simp] theorem State.drawn_keys : (s.drawn).keys = s.keys := rfl
@[simp] theorem State.drawn_mode : (s.drawn).mode = s.mode := rfl
@[simp] theorem State.drawn_effect : (s.drawn).effect = s.effect := rfl
@[simp] theorem State.drawn_effectFrames : (s.drawn).effectFrames = s.effectFrames := rfl
@[simp] theorem State.drawn_paletteIndex : (s.drawn).paletteIndex = s.paletteIndex := rfl
@[simp] theorem State.drawn_cfg : (s.drawn).cfg = s.cfg := rfl
@[simp] theorem State.drawn_status : (s.drawn).status = s.status := rfl
@[simp] theorem State.drawn_faultLog : (s.drawn).faultLog = s.faultLog := rfl

@[simp] theorem State.drawDots_mem (d : List Dot) : (s.drawDots d).mem = s.mem := rfl
@[simp] theorem State.drawDots_index (d : List Dot) : (s.drawDots d).index = s.index := rfl
@[simp] theorem State.drawDots_pc (d : List Dot) : (s.drawDots d).pc = s.pc := rfl
@[simp] theorem State.drawDots_stack (d : List Dot) : (s.drawDots d).stack = s.stack := rfl
@[simp] theorem State.drawDots_sp (d : List Dot) : (s.drawDots d).sp = s.sp := rfl
@[simp] theorem State.drawDots_eb (d : List Dot) : (s.drawDots d).eb = s.eb := rfl
@[simp] theorem State.drawDots_dt (d : List Dot) : (s.drawDots d).dt = s.dt := rfl
@[simp] theorem State.drawDots_st (d : List Dot) : (s.drawDots d).st = s.st := rfl
@[simp] theorem State.drawDots_keys (d : List Dot) : (s.drawDots d).keys = s.keys := rfl
@[simp] theorem State.drawDots_mode (d : List Dot) : (s.drawDots d).mode = s.mode := rfl
@[simp] theorem State.drawDots_effect (d : List Dot) : (s.drawDots d).effect = s.effect := rfl
@[simp] theorem State.drawDots_effectFrames (d : List Dot) : (s.drawDots d).effectFrames = s.effectFrames := rfl
@[simp] theorem State.drawDots_paletteIndex (d : List Dot) : (s.drawDots d).paletteIndex = s.paletteIndex := rfl
@[simp] theorem State.drawDots_cfg (d : List Dot) : (s.drawDots d).cfg = s.cfg := rfl
@[simp] theorem State.drawDots_draws (d : List Dot) : (s.drawDots d).draws = s.draws := rfl
@[simp] theorem State.drawDots_status (d : List Dot) : (s.drawDots d).status = s.status := rfl
@[simp] theorem State.drawDots_faultLog (d : List Dot) : (s.drawDots d).faultLog = s.faultLog := rfl

@[simp] theorem State.popReg_mem (i : Fin Const.physRegs) : (s.popReg i).mem = s.mem := rfl
@[simp] theorem State.popReg_index (i : Fin Const.physRegs) : (s.popReg i).index = s.index := rfl
@[simp] theorem State.popReg_pc (i : Fin Const.physRegs) : (s.popReg i).pc = s.pc := rfl
@[simp] theorem State.popReg_stack (i : Fin Const.physRegs) : (s.popReg i).stack = s.stack := rfl
@[simp] theorem State.popReg_fb (i : Fin Const.physRegs) : (s.popReg i).fb = s.fb := rfl
@[simp] theorem State.popReg_eb (i : Fin Const.physRegs) : (s.popReg i).eb = s.eb := rfl
@[simp] theorem State.popReg_redraw (i : Fin Const.physRegs) : (s.popReg i).redraw = s.redraw := rfl
@[simp] theorem State.popReg_dt (i : Fin Const.physRegs) : (s.popReg i).dt = s.dt := rfl
@[simp] theorem State.popReg_st (i : Fin Const.physRegs) : (s.popReg i).st = s.st := rfl
@[simp] theorem State.popReg_keys (i : Fin Const.physRegs) : (s.popReg i).keys = s.keys := rfl
@[simp] theorem State.popReg_mode (i : Fin Const.physRegs) : (s.popReg i).mode = s.mode := rfl
@[simp] theorem State.popReg_effect (i : Fin Const.physRegs) : (s.popReg i).effect = s.effect := rfl
@[simp] theorem State.popReg_effectFrames (i : Fin Const.physRegs) : (s.popReg i).effectFrames = s.effectFrames := rfl
@[simp] theorem State.popReg_paletteIndex (i : Fin Const.physRegs) : (s.popReg i).paletteIndex = s.paletteIndex := rfl
@[simp] theorem State.popReg_cfg (i : Fin Const.physRegs) : (s.popReg i).cfg = s.cfg := rfl
@[simp] theorem State.popReg_draws (i : Fin Const.physRegs) : (s.popReg i).draws = s.draws := rfl
@[simp] theorem State.popReg_status (i : Fin Const.physRegs) : (s.popReg i).status = s.status := rfl
@[simp] theorem State.popReg_faultLog (i : Fin Const.physRegs) : (s.popReg i).faultLog = s.faultLog := rfl

@[simp] theorem State.popPc_mem : (s.popPc).mem = s.mem := rfl
@[simp] theorem State.popPc_regs : (s.popPc).regs = s.regs := rfl
@[simp] theorem State.popPc_index : (s.popPc).index = s.index := rfl
@[simp] theorem State.popPc_stack : (s.popPc).stack = s.stack := rfl
@[simp] theorem State.popPc_fb : (s.popPc).fb = s.fb := rfl
@[simp] theorem State.popPc_eb : (s.popPc).eb = s.eb := rfl
@[simp] theorem State.popPc_redraw : (s.popPc).redraw = s.redraw := rfl
@[simp] theorem State.popPc_dt : (s.popPc).dt = s.dt := rfl
@[simp] theorem State.popPc_st : (s.popPc).st = s.st := rfl
@[simp] theorem State.popPc_keys : (s.popPc).keys = s.keys := rfl
@[simp] theorem State.popPc_mode : (s.popPc).mode = s.mode := rfl
@[simp] theorem State.popPc_effect : (s.popPc).effect = s.effect := rfl
@[simp] theorem State.popPc_effectFrames : (s.popPc).effectFrames = s.effectFrames := rfl
@[simp] theorem State.popPc_paletteIndex : (s.popPc).paletteIndex = s.paletteIndex := rfl
@[simp] theorem State.popPc_cfg : (s.popPc).cfg = s.cfg := rfl
@[simp] theorem State.popPc_draws : (s.popPc).draws = s.draws := rfl
@[simp] theorem State.popPc_status : (s.popPc).status = s.status := rfl
@[simp] theorem State.popPc_faultLog : (s.popPc).faultLog = s.faultLog := rfl

@[simp] theorem State.pushFrame_mem : (s.pushFrame).mem = s.mem := rfl
@[simp] theorem State.pushFrame_regs : (s.pushFrame).regs = s.regs := rfl
@[simp] theorem State.pushFrame_index : (s.pushFrame).index = s.index := rfl
@[simp] theorem State.pushFrame_pc : (s.pushFrame).pc = s.pc := rfl
@[simp] theorem State.pushFrame_fb : (s.pushFrame).fb = s.fb := rfl
@[simp] theorem State.pushFrame_eb : (s.pushFrame).eb = s.eb := rfl
@[simp] theorem State.pushFrame_redraw : (s.pushFrame).redraw = s.redraw := rfl
@[simp] theorem State.pushFrame_dt : (s.pushFrame).dt = s.dt := rfl
@[simp] theorem State.pushFrame_st : (s.pushFrame).st = s.st := rfl
@[simp] theorem State.pushFrame_keys : (s.pushFrame).keys = s.keys := rfl
@[simp] theorem State.pushFrame_mode : (s.pushFrame).mode = s.mode := rfl
@[simp] theorem State.pushFrame_effect : (s.pushFrame).effect = s.effect := rfl
@[simp] theorem State.pushFrame_effectFrames : (s.pushFrame).effectFrames = s.effectFrames := rfl
@[simp] theorem State.pushFrame_paletteIndex : (s.pushFrame).paletteIndex = s.paletteIndex := rfl
@[simp] theorem State.pushFrame_cfg : (s.pushFrame).cfg = s.cfg := rfl
@[simp] theorem State.pushFrame_draws : (s.pushFrame).draws = s.draws := rfl
@[simp] theorem State.pushFrame_status : (s.pushFrame).status = s.status := rfl
@[simp] theorem State.pushFrame_faultLog : (s.pushFrame).faultLog = s.faultLog := rfl

@[simp] theorem State.advance_mem : (s.advance).mem = s.mem := rfl
@[simp] theorem State.advance_regs : (s.advance).regs = s.regs := rfl
@[simp] theorem State.advance_index : (s.advance).index = s.index := rfl
@[simp] theorem State.advance_stack : (s.advance).stack = s.stack := rfl
@[simp] theorem State.advance_sp : (s.advance).sp = s.sp := rfl
@[simp] theorem State.advance_fb : (s.advance).fb = s.fb := rfl
@[simp] theorem State.advance_eb : (s.advance).eb = s.eb := rfl
@[simp] theorem State.advance_redraw : (s.advance).redraw = s.redraw := rfl
@[simp] theorem State.advance_dt : (s.advance).dt = s.dt := rfl
@[simp] theorem State.advance_st : (s.advance).st = s.st := rfl
@[simp] theorem State.advance_keys : (s.advance).keys = s.keys := rfl
@[simp] theorem State.advance_mode : (s.advance).mode = s.mode := rfl
@[simp] theorem State.advance_effect : (s.advance).effect = s.effect := rfl
@[simp] theorem State.advance_effectFrames : (s.advance).effectFrames = s.effectFrames := rfl
@[simp] theorem State.advance_paletteIndex : (s.advance).paletteIndex = s.paletteIndex := rfl
@[simp] theorem State.advance_cfg : (s.advance).cfg = s.cfg := rfl
@[simp] theorem State.advance_draws : (s.advance).draws = s.draws := rfl
@[simp] theorem State.advance_faultLog : (s.advance).faultLog = s.faultLog := rfl

@[simp] theorem State.raise_mem (e : ErrorCond) : (s.raise e).mem = s.mem := rfl
@[simp] theorem State.raise_regs (e : ErrorCond) : (s.raise e).regs = s.regs := rfl
@[simp] theorem State.raise_index (e : ErrorCond) : (s.raise e).index = s.index := rfl
@[simp] theorem State.raise_pc (e : ErrorCond) : (s.raise e).pc = s.pc := rfl
@[simp] theorem State.raise_stack (e : ErrorCond) : (s.raise e).stack = s.stack := rfl
@[simp] theorem State.raise_sp (e : ErrorCond) : (s.raise e).sp = s.sp := rfl
@[simp] theorem State.raise_fb (e : ErrorCond) : (s.raise e).fb = s.fb := rfl
@[simp] theorem State.raise_eb (e : ErrorCond) : (s.raise e).eb = s.eb := rfl
@[simp] theorem State.raise_redraw (e : ErrorCond) : (s.raise e).redraw = s.redraw := rfl
@[simp] theorem State.raise_dt (e : ErrorCond) : (s.raise e).dt = s.dt := rfl
@[simp] theorem State.raise_st (e : ErrorCond) : (s.raise e).st = s.st := rfl
@[simp] theorem State.raise_keys (e : ErrorCond) : (s.raise e).keys = s.keys := rfl
@[simp] theorem State.raise_mode (e : ErrorCond) : (s.raise e).mode = s.mode := rfl
@[simp] theorem State.raise_effect (e : ErrorCond) : (s.raise e).effect = s.effect := rfl
@[simp] theorem State.raise_effectFrames (e : ErrorCond) : (s.raise e).effectFrames = s.effectFrames := rfl
@[simp] theorem State.raise_paletteIndex (e : ErrorCond) : (s.raise e).paletteIndex = s.paletteIndex := rfl
@[simp] theorem State.raise_cfg (e : ErrorCond) : (s.raise e).cfg = s.cfg := rfl
@[simp] theorem State.raise_draws (e : ErrorCond) : (s.raise e).draws = s.draws := rfl
@[simp] theorem State.raise_status (e : ErrorCond) : (s.raise e).status = .error e := rfl
@[simp] theorem State.raise_faultLog (e : ErrorCond) : (s.raise e).faultLog = e :: s.faultLog := rfl
@[simp] theorem State.drawDots_redraw (d : List Dot) : (s.drawDots d).redraw = true := rfl
@[simp] theorem State.drawDots_fb (d : List Dot) : (s.drawDots d).fb = (s.plot d).1 := rfl
@[simp] theorem State.drawn_draws : s.drawn.draws = s.draws + 1 := rfl
@[simp] theorem State.push_sp (v : Cell64) : (s.push v).sp = s.sp + 1 := rfl
@[simp] theorem State.drop_sp : s.drop.sp = s.sp - 1 := rfl
@[simp] theorem State.setIndexNat_index (v : Nat) : (s.setIndexNat v).index = BitVec.ofNat 16 v := rfl
@[simp] theorem State.setPcNat_pc (v : Nat) : (s.setPcNat v).pc = BitVec.ofNat 16 v := rfl
@[simp] theorem State.skip_pc : s.skip.pc = s.pc + 2#16 := rfl
@[simp] theorem State.advance_pc : s.advance.pc = s.pc + 2#16 := rfl
@[simp] theorem State.advance_status : s.advance.status = .ok := rfl

@[simp] theorem State.skipIf_mem (b : Bool) : (s.skipIf b).mem = s.mem := by cases b <;> rfl
@[simp] theorem State.skipIf_regs (b : Bool) : (s.skipIf b).regs = s.regs := by cases b <;> rfl
@[simp] theorem State.skipIf_index (b : Bool) : (s.skipIf b).index = s.index := by cases b <;> rfl
@[simp] theorem State.skipIf_stack (b : Bool) : (s.skipIf b).stack = s.stack := by cases b <;> rfl
@[simp] theorem State.skipIf_sp (b : Bool) : (s.skipIf b).sp = s.sp := by cases b <;> rfl
@[simp] theorem State.skipIf_fb (b : Bool) : (s.skipIf b).fb = s.fb := by cases b <;> rfl
@[simp] theorem State.skipIf_eb (b : Bool) : (s.skipIf b).eb = s.eb := by cases b <;> rfl
@[simp] theorem State.skipIf_redraw (b : Bool) : (s.skipIf b).redraw = s.redraw := by cases b <;> rfl
@[simp] theorem State.skipIf_dt (b : Bool) : (s.skipIf b).dt = s.dt := by cases b <;> rfl
@[simp] theorem State.skipIf_st (b : Bool) : (s.skipIf b).st = s.st := by cases b <;> rfl
@[simp] theorem State.skipIf_keys (b : Bool) : (s.skipIf b).keys = s.keys := by cases b <;> rfl
@[simp] theorem State.skipIf_mode (b : Bool) : (s.skipIf b).mode = s.mode := by cases b <;> rfl
@[simp] theorem State.skipIf_effect (b : Bool) : (s.skipIf b).effect = s.effect := by cases b <;> rfl
@[simp] theorem State.skipIf_effectFrames (b : Bool) : (s.skipIf b).effectFrames = s.effectFrames := by cases b <;> rfl
@[simp] theorem State.skipIf_paletteIndex (b : Bool) : (s.skipIf b).paletteIndex = s.paletteIndex := by cases b <;> rfl
@[simp] theorem State.skipIf_cfg (b : Bool) : (s.skipIf b).cfg = s.cfg := by cases b <;> rfl
@[simp] theorem State.skipIf_draws (b : Bool) : (s.skipIf b).draws = s.draws := by cases b <;> rfl
@[simp] theorem State.skipIf_status (b : Bool) : (s.skipIf b).status = s.status := by cases b <;> rfl
@[simp] theorem State.skipIf_faultLog (b : Bool) : (s.skipIf b).faultLog = s.faultLog := by cases b <;> rfl
@[simp] theorem State.skipIf_pc (b : Bool) : (s.skipIf b).pc = if b then s.pc + 2#16 else s.pc := by
  cases b <;> rfl

@[simp] theorem State.autoAdvance_mem (n : Nat) : (s.autoAdvance n).mem = s.mem := by
  unfold State.autoAdvance; split <;> rfl
@[simp] theorem State.autoAdvance_regs (n : Nat) : (s.autoAdvance n).regs = s.regs := by
  unfold State.autoAdvance; split <;> rfl
@[simp] theorem State.autoAdvance_pc (n : Nat) : (s.autoAdvance n).pc = s.pc := by
  unfold State.autoAdvance; split <;> rfl
@[simp] theorem State.autoAdvance_stack (n : Nat) : (s.autoAdvance n).stack = s.stack := by
  unfold State.autoAdvance; split <;> rfl
@[simp] theorem State.autoAdvance_sp (n : Nat) : (s.autoAdvance n).sp = s.sp := by
  unfold State.autoAdvance; split <;> rfl
@[simp] theorem State.autoAdvance_fb (n : Nat) : (s.autoAdvance n).fb = s.fb := by
  unfold State.autoAdvance; split <;> rfl
@[simp] theorem State.autoAdvance_eb (n : Nat) : (s.autoAdvance n).eb = s.eb := by
  unfold State.autoAdvance; split <;> rfl
@[simp] theorem State.autoAdvance_redraw (n : Nat) : (s.autoAdvance n).redraw = s.redraw := by
  unfold State.autoAdvance; split <;> rfl
@[simp] theorem State.autoAdvance_dt (n : Nat) : (s.autoAdvance n).dt = s.dt := by
  unfold State.autoAdvance; split <;> rfl
@[simp] theorem State.autoAdvance_st (n : Nat) : (s.autoAdvance n).st = s.st := by
  unfold State.autoAdvance; split <;> rfl
@[simp] theorem State.autoAdvance_keys (n : Nat) : (s.autoAdvance n).keys = s.keys := by
  unfold State.autoAdvance; split <;> rfl
@[simp] theorem State.autoAdvance_mode (n : Nat) : (s.autoAdvance n).mode = s.mode := by
  unfold State.autoAdvance; split <;> rfl
@[simp] theorem State.autoAdvance_effect (n : Nat) : (s.autoAdvance n).effect = s.effect := by
  unfold State.autoAdvance; split <;> rfl
@[simp] theorem State.autoAdvance_effectFrames (n : Nat) : (s.autoAdvance n).effectFrames = s.effectFrames := by
  unfold State.autoAdvance; split <;> rfl
@[simp] theorem State.autoAdvance_paletteIndex (n : Nat) : (s.autoAdvance n).paletteIndex = s.paletteIndex := by
  unfold State.autoAdvance; split <;> rfl
@[simp] theorem State.autoAdvance_cfg (n : Nat) : (s.autoAdvance n).cfg = s.cfg := by
  unfold State.autoAdvance; split <;> rfl
@[simp] theorem State.autoAdvance_draws (n : Nat) : (s.autoAdvance n).draws = s.draws := by
  unfold State.autoAdvance; split <;> rfl
@[simp] theorem State.autoAdvance_status (n : Nat) : (s.autoAdvance n).status = s.status := by
  unfold State.autoAdvance; split <;> rfl
@[simp] theorem State.autoAdvance_faultLog (n : Nat) : (s.autoAdvance n).faultLog = s.faultLog := by
  unfold State.autoAdvance; split <;> rfl
@[simp] theorem State.autoAdvance_index (n : Nat) : (s.autoAdvance n).index =
    if s.mode.autoInc then BitVec.ofNat 16 (s.index.toNat + n) else s.index := by
  unfold State.autoAdvance; split <;> rfl

@[simp] theorem State.writeBytes_regs (a : Nat) (bs : List Byte) : (s.writeBytes a bs).regs = s.regs := by
  induction bs generalizing s a with
  | nil => rfl
  | cons b bs ih => exact ih (s.writeByte a b) (a + 1)
@[simp] theorem State.writeBytes_index (a : Nat) (bs : List Byte) : (s.writeBytes a bs).index = s.index := by
  induction bs generalizing s a with
  | nil => rfl
  | cons b bs ih => exact ih (s.writeByte a b) (a + 1)
@[simp] theorem State.writeBytes_pc (a : Nat) (bs : List Byte) : (s.writeBytes a bs).pc = s.pc := by
  induction bs generalizing s a with
  | nil => rfl
  | cons b bs ih => exact ih (s.writeByte a b) (a + 1)
@[simp] theorem State.writeBytes_stack (a : Nat) (bs : List Byte) : (s.writeBytes a bs).stack = s.stack := by
  induction bs generalizing s a with
  | nil => rfl
  | cons b bs ih => exact ih (s.writeByte a b) (a + 1)
@[simp] theorem State.writeBytes_sp (a : Nat) (bs : List Byte) : (s.writeBytes a bs).sp = s.sp := by
  induction bs generalizing s a with
  | nil => rfl
  | cons b bs ih => exact ih (s.writeByte a b) (a + 1)
@[simp] theorem State.writeBytes_fb (a : Nat) (bs : List Byte) : (s.writeBytes a bs).fb = s.fb := by
  induction bs generalizing s a with
  | nil => rfl
  | cons b bs ih => exact ih (s.writeByte a b) (a + 1)
@[simp] theorem State.writeBytes_eb (a : Nat) (bs : List Byte) : (s.writeBytes a bs).eb = s.eb := by
  induction bs generalizing s a with
  | nil => rfl
  | cons b bs ih => exact ih (s.writeByte a b) (a + 1)
@[simp] theorem State.writeBytes_redraw (a : Nat) (bs : List Byte) : (s.writeBytes a bs).redraw = s.redraw := by
  induction bs generalizing s a with
  | nil => rfl
  | cons b bs ih => exact ih (s.writeByte a b) (a + 1)
@[simp] theorem State.writeBytes_dt (a : Nat) (bs : List Byte) : (s.writeBytes a bs).dt = s.dt := by
  induction bs generalizing s a with
  | nil => rfl
  | cons b bs ih => exact ih (s.writeByte a b) (a + 1)
@[simp] theorem State.writeBytes_st (a : Nat) (bs : List Byte) : (s.writeBytes a bs).st = s.st := by
  induction bs generalizing s a with
  | nil => rfl
  | cons b bs ih => exact ih (s.writeByte a b) (a + 1)
@[simp] theorem State.writeBytes_keys (a : Nat) (bs : List Byte) : (s.writeBytes a bs).keys = s.keys := by
  induction bs generalizing s a with
  | nil => rfl
  | cons b bs ih => exact ih (s.writeByte a b) (a + 1)
@[simp] theorem State.writeBytes_mode (a : Nat) (bs : List Byte) : (s.writeBytes a bs).mode = s.mode := by
  induction bs generalizing s a with
  | nil => rfl
  | cons b bs ih => exact ih (s.writeByte a b) (a + 1)
@[simp] theorem State.writeBytes_effect (a : Nat) (bs : List Byte) : (s.writeBytes a bs).effect = s.effect := by
  induction bs generalizing s a with
  | nil => rfl
  | cons b bs ih => exact ih (s.writeByte a b) (a + 1)
@[simp] theorem State.writeBytes_effectFrames (a : Nat) (bs : List Byte) : (s.writeBytes a bs).effectFrames = s.effectFrames := by
  induction bs generalizing s a with
  | nil => rfl
  | cons b bs ih => exact ih (s.writeByte a b) (a + 1)
@[simp] theorem State.writeBytes_paletteIndex (a : Nat) (bs : List Byte) : (s.writeBytes a bs).paletteIndex = s.paletteIndex := by
  induction bs generalizing s a with
  | nil => rfl
  | cons b bs ih => exact ih (s.writeByte a b) (a + 1)
@[simp] theorem State.writeBytes_cfg (a : Nat) (bs : List Byte) : (s.writeBytes a bs).cfg = s.cfg := by
  induction bs generalizing s a with
  | nil => rfl
  | cons b bs ih => exact ih (s.writeByte a b) (a + 1)
@[simp] theorem State.writeBytes_draws (a : Nat) (bs : List Byte) : (s.writeBytes a bs).draws = s.draws := by
  induction bs generalizing s a with
  | nil => rfl
  | cons b bs ih => exact ih (s.writeByte a b) (a + 1)
@[simp] theorem State.writeBytes_status (a : Nat) (bs : List Byte) : (s.writeBytes a bs).status = s.status := by
  induction bs generalizing s a with
  | nil => rfl
  | cons b bs ih => exact ih (s.writeByte a b) (a + 1)
@[simp] theorem State.writeBytes_faultLog (a : Nat) (bs : List Byte) : (s.writeBytes a bs).faultLog = s.faultLog := by
  induction bs generalizing s a with
  | nil => rfl
  | cons b bs ih => exact ih (s.writeByte a b) (a + 1)

@[simp] theorem State.loadRegs_mem (t : State) (n : Nat) : (s.loadRegs t n).mem = s.mem := by
  induction n with
  | zero => rfl
  | succ n ih => exact ih
@[simp] theorem State.loadRegs_index (t : State) (n : Nat) : (s.loadRegs t n).index = s.index := by
  induction n with
  | zero => rfl
  | succ n ih => exact ih
@[simp] theorem State.loadRegs_pc (t : State) (n : Nat) : (s.loadRegs t n).pc = s.pc := by
  induction n with
  | zero => rfl
  | succ n ih => exact ih
@[simp] theorem State.loadRegs_stack (t : State) (n : Nat) : (s.loadRegs t n).stack = s.stack := by
  induction n with
  | zero => rfl
  | succ n ih => exact ih
@[simp] theorem State.loadRegs_sp (t : State) (n : Nat) : (s.loadRegs t n).sp = s.sp := by
  induction n with
  | zero => rfl
  | succ n ih => exact ih
@[simp] theorem State.loadRegs_fb (t : State) (n : Nat) : (s.loadRegs t n).fb = s.fb := by
  induction n with
  | zero => rfl
  | succ n ih => exact ih
@[simp] theorem State.loadRegs_eb (t : State) (n : Nat) : (s.loadRegs t n).eb = s.eb := by
  induction n with
  | zero => rfl
  | succ n ih => exact ih
@[simp] theorem State.loadRegs_redraw (t : State) (n : Nat) : (s.loadRegs t n).redraw = s.redraw := by
  induction n with
  | zero => rfl
  | succ n ih => exact ih
@[simp] theorem State.loadRegs_dt (t : State) (n : Nat) : (s.loadRegs t n).dt = s.dt := by
  induction n with
  | zero => rfl
  | succ n ih => exact ih
@[simp] theorem State.loadRegs_st (t : State) (n : Nat) : (s.loadRegs t n).st = s.st := by
  induction n with
  | zero => rfl
  | succ n ih => exact ih
@[simp] theorem State.loadRegs_keys (t : State) (n : Nat) : (s.loadRegs t n).keys = s.keys := by
  induction n with
  | zero => rfl
  | succ n ih => exact ih
@[simp] theorem State.loadRegs_mode (t : State) (n : Nat) : (s.loadRegs t n).mode = s.mode := by
  induction n with
  | zero => rfl
  | succ n ih => exact ih
@[simp] theorem State.loadRegs_effect (t : State) (n : Nat) : (s.loadRegs t n).effect = s.effect := by
  induction n with
  | zero => rfl
  | succ n ih => exact ih
@[simp] theorem State.loadRegs_effectFrames (t : State) (n : Nat) : (s.loadRegs t n).effectFrames = s.effectFrames := by
  induction n with
  | zero => rfl
  | succ n ih => exact ih
@[simp] theorem State.loadRegs_paletteIndex (t : State) (n : Nat) : (s.loadRegs t n).paletteIndex = s.paletteIndex := by
  induction n with
  | zero => rfl
  | succ n ih => exact ih
@[simp] theorem State.loadRegs_cfg (t : State) (n : Nat) : (s.loadRegs t n).cfg = s.cfg := by
  induction n with
  | zero => rfl
  | succ n ih => exact ih
@[simp] theorem State.loadRegs_draws (t : State) (n : Nat) : (s.loadRegs t n).draws = s.draws := by
  induction n with
  | zero => rfl
  | succ n ih => exact ih
@[simp] theorem State.loadRegs_status (t : State) (n : Nat) : (s.loadRegs t n).status = s.status := by
  induction n with
  | zero => rfl
  | succ n ih => exact ih
@[simp] theorem State.loadRegs_faultLog (t : State) (n : Nat) : (s.loadRegs t n).faultLog = s.faultLog := by
  induction n with
  | zero => rfl
  | succ n ih => exact ih

end Sys2Proof.Machine
end

