-- ==== Sys2Proof/Laws/Memory.lean ====
section
/-!
SUPPORT. Laws/Memory.lean: reading and writing the memory list and the state's bytes; the canonical form
is kept.
-/

namespace Sys2Proof.Machine

/-! ## The list -/

theorem Memory.read_erase_same (font : List Byte) (a : Nat) (m : Memory) :
    Memory.read font a (Memory.erase a m) = Memory.unlisted font a := by
  induction m with
  | nil => rfl
  | cons c m ih =>
    obtain ⟨b, v⟩ := c
    by_cases h : b = a <;> simp [Memory.erase, Memory.read, h, ih]

theorem Memory.read_erase_ne (font : List Byte) {a b : Nat} (hab : b ≠ a) (m : Memory) :
    Memory.read font b (Memory.erase a m) = Memory.read font b m := by
  induction m with
  | nil => rfl
  | cons c m ih =>
    obtain ⟨k, v⟩ := c
    by_cases h : k = a
    · subst h; simp [Memory.erase, Memory.read, ih, Ne.symm hab]
    · simp only [Memory.erase, Memory.read, h, if_false, ih]

theorem Memory.read_insert_ne (font : List Byte) {a b : Nat} (hab : b ≠ a) (v : Byte) (m : Memory) :
    Memory.read font b (Memory.insert a v m) = Memory.read font b m := by
  induction m with
  | nil => simp [Memory.insert, Memory.read, Ne.symm hab]
  | cons c m ih =>
    obtain ⟨k, w⟩ := c
    by_cases h : a < k
    · simp [Memory.insert, Memory.read, h, Ne.symm hab]
    · simp only [Memory.insert, Memory.read, h, if_false, ih]

/-- No entry of the list names the address. -/
theorem Memory.erase_fresh (a : Nat) (m : Memory) : ∀ c ∈ Memory.erase a m, c.1 ≠ a := by
  induction m with
  | nil => simp [Memory.erase]
  | cons c m ih =>
    obtain ⟨b, v⟩ := c
    by_cases h : b = a
    · simpa [Memory.erase, h] using ih
    · simpa [Memory.erase, h] using ih

theorem Memory.read_insert_same (font : List Byte) (a : Nat) (v : Byte) (m : Memory)
    (fresh : ∀ c ∈ m, c.1 ≠ a) : Memory.read font a (Memory.insert a v m) = v := by
  induction m with
  | nil => simp [Memory.insert, Memory.read]
  | cons c m ih =>
    obtain ⟨b, w⟩ := c
    have hb : b ≠ a := fresh (b, w) (by simp)
    by_cases h : a < b
    · simp [Memory.insert, Memory.read, h]
    · simp [Memory.insert, Memory.read, h, hb, ih fun c hc => fresh c (by simp [hc])]

/-- A write is read back. -/
@[simp] theorem Memory.read_write_same (font : List Byte) (a : Nat) (v : Byte) (m : Memory) :
    Memory.read font a (Memory.write font a v m) = v := by
  unfold Memory.write
  split
  · next h => rw [Memory.read_erase_same, h]
  · exact Memory.read_insert_same font a v _ (Memory.erase_fresh a m)

/-- A write leaves every other address. -/
theorem Memory.read_write_ne (font : List Byte) {a b : Nat} (hab : b ≠ a) (v : Byte) (m : Memory) :
    Memory.read font b (Memory.write font a v m) = Memory.read font b m := by
  unfold Memory.write
  split
  · exact Memory.read_erase_ne font hab m
  · rw [Memory.read_insert_ne font hab, Memory.read_erase_ne font hab]

theorem Memory.erase_eq_filter (a : Nat) (m : Memory) :
    Memory.erase a m = m.filter fun c => decide (c.1 ≠ a) := by
  induction m with
  | nil => rfl
  | cons c m ih =>
    obtain ⟨b, v⟩ := c
    by_cases h : b = a <;> simp [Memory.erase, h, ih]

theorem Memory.mem_insert {a : Nat} {v : Byte} {m : Memory} {c : Host.Cell} :
    c ∈ Memory.insert a v m ↔ c = (a, v) ∨ c ∈ m := by
  induction m with
  | nil => simp [Memory.insert]
  | cons d m ih =>
    obtain ⟨b, w⟩ := d
    by_cases h : a < b
    · simp [Memory.insert, h]
    · simp only [Memory.insert, h, if_false, List.mem_cons, ih]; tauto

theorem Memory.pairwise_insert {a : Nat} {v : Byte} {m : Memory}
    (sorted : m.Pairwise fun c d => c.1 < d.1) (fresh : ∀ c ∈ m, c.1 ≠ a) :
    (Memory.insert a v m).Pairwise fun c d => c.1 < d.1 := by
  induction m with
  | nil => simp [Memory.insert]
  | cons d m ih =>
    obtain ⟨b, w⟩ := d
    rw [List.pairwise_cons] at sorted
    have hb : b ≠ a := fresh (b, w) (by simp)
    by_cases h : a < b
    · simp only [Memory.insert, h, if_true, List.pairwise_cons]
      refine ⟨?_, sorted.1, sorted.2⟩
      intro c hc
      rcases List.mem_cons.mp hc with rfl | hc
      · exact h
      · exact Nat.lt_trans h (sorted.1 c hc)
    · simp only [Memory.insert, h, if_false, List.pairwise_cons]
      refine ⟨?_, ih sorted.2 fun c hc => fresh c (by simp [hc])⟩
      intro c hc
      rcases Memory.mem_insert.mp hc with rfl | hc
      · change b < a; omega
      · exact sorted.1 c hc

theorem Memory.wf_iff (font : List Byte) (m : Memory) :
    Memory.wf font m = true ↔ (m.Pairwise fun c d => c.1 < d.1) ∧
      ∀ c ∈ m, c.1 < Const.physMem ∧ c.2 ≠ Memory.unlisted font c.1 := by
  simp only [Memory.wf, Bool.and_eq_true, decide_eq_true_eq, List.all_eq_true]

/-- A write at a physical address keeps the canonical form. -/
theorem Memory.wf_write {font : List Byte} {a : Nat} {m : Memory} (v : Byte)
    (ha : a < Const.physMem) (h : Memory.wf font m = true) :
    Memory.wf font (Memory.write font a v m) = true := by
  rw [Memory.wf_iff] at h ⊢
  have sub : (Memory.erase a m).Sublist m := by
    rw [Memory.erase_eq_filter]; exact List.filter_sublist
  have hs : (Memory.erase a m).Pairwise fun c d => c.1 < d.1 := h.1.sublist sub
  unfold Memory.write
  split
  · exact ⟨hs, fun c hc => h.2 c (sub.mem hc)⟩
  · next hv =>
    refine ⟨Memory.pairwise_insert hs (Memory.erase_fresh a m), fun c hc => ?_⟩
    rcases Memory.mem_insert.mp hc with rfl | hc
    · exact ⟨ha, hv⟩
    · exact h.2 c (sub.mem hc)

/-! ## Bytes of the state -/

variable (s : State)

@[simp] theorem State.readByte_writeByte_same (a : Nat) (v : Byte) :
    (s.writeByte a v).readByte a = v := Memory.read_write_same _ _ _ _

theorem State.readByte_writeByte_ne {a b : Nat} (h : b ≠ a) (v : Byte) :
    (s.writeByte a v).readByte b = s.readByte b := Memory.read_write_ne _ h _ _

/-- Reading depends on the configuration and the memory only. -/
theorem State.readByte_congr {t : State} (hc : t.cfg = s.cfg) (hm : t.mem = s.mem) (a : Nat) :
    t.readByte a = s.readByte a := by simp [State.readByte, hc, hm]

theorem State.memRead_congr {t : State} (hc : t.cfg = s.cfg) (hm : t.mem = s.mem) (a n : Nat) :
    t.memRead a n = s.memRead a n := by
  simp [State.memRead, State.readBytes, State.readByte, hc, hm]

/-- A run of bytes leaves every byte outside its span. -/
theorem State.readByte_writeBytes_outside {a b : Nat} (bs : List Byte)
    (h : b < a ∨ a + bs.length ≤ b) : (s.writeBytes a bs).readByte b = s.readByte b := by
  induction bs generalizing s a with
  | nil => rfl
  | cons v bs ih =>
    rw [List.length_cons] at h
    rw [State.writeBytes, ih (s.writeByte a v) (by omega), s.readByte_writeByte_ne (by omega)]

/-- A run of bytes is read back. -/
theorem State.readByte_writeBytes_inside (a : Nat) (bs : List Byte) (k : Nat) (h : k < bs.length) :
    (s.writeBytes a bs).readByte (a + k) = bs[k] := by
  induction bs generalizing s a k with
  | nil => simp at h
  | cons v bs ih =>
    rw [State.writeBytes]
    cases k with
    | zero =>
      rw [(s.writeByte a v).readByte_writeBytes_outside bs (by omega)]
      simp
    | succ k =>
      have := ih (s.writeByte a v) (a + 1) k (by simpa using h)
      rw [show a + (k + 1) = a + 1 + k by omega, this]
      simp

@[simp] theorem State.readBytes_length (a n : Nat) : (s.readBytes a n).length = n := by
  simp [State.readBytes]

/-- A run of bytes inside physical memory keeps the canonical form. -/
theorem State.wf_writeBytes (a : Nat) (bs : List Byte) (hs : a + bs.length ≤ Const.physMem)
    (h : Memory.wf s.cfg.font s.mem = true) :
    Memory.wf (s.writeBytes a bs).cfg.font (s.writeBytes a bs).mem = true := by
  induction bs generalizing s a with
  | nil => exact h
  | cons v bs ih =>
    rw [List.length_cons] at hs
    exact ih (s.writeByte a v) (a + 1) (by omega) (Memory.wf_write v (by omega) h)

/-! ## Byte order -/

@[simp] theorem bytesOf_length (n v : Nat) : (bytesOf n v).length = n := by simp [bytesOf]

theorem bytesOf_getElem (n v k : Nat) (h : k < (bytesOf n v).length) :
    (bytesOf n v)[k] = BitVec.ofNat 8 (v / 256 ^ (n - 1 - k)) := by simp [bytesOf]

@[simp] theorem bcdDigits_length (n v : Nat) : (bcdDigits n v).length = n := by simp [bcdDigits]

theorem bcdDigits_getElem (n v k : Nat) (h : k < (bcdDigits n v).length) :
    (bcdDigits n v)[k] = BitVec.ofNat 8 (v / 10 ^ (n - 1 - k) % 10) := by simp [bcdDigits]

theorem bigEndian_append (bs : List Byte) (b : Byte) :
    bigEndian (bs ++ [b]) = bigEndian bs * 256 + b.toNat := by simp [bigEndian]

theorem State.memRead_succ (a n : Nat) :
    s.memRead a (n + 1) = s.memRead a n * 256 + (s.readByte (a + n)).toNat := by
  simp only [State.memRead, State.readBytes, List.range_succ, List.map_append, List.map_cons,
    List.map_nil, bigEndian_append]

theorem State.memRead_lt (a n : Nat) : s.memRead a n < 256 ^ n := by
  induction n with
  | zero => simp [State.memRead, State.readBytes, bigEndian]
  | succ n ih =>
    rw [State.memRead_succ, Nat.pow_succ]
    have := (s.readByte (a + n)).isLt
    omega

/-- `MemRead` puts the byte at the lowest address first: byte `k` of `n` is digit `n-1-k` to the base
256. -/
theorem State.memRead_byte (a n k : Nat) (h : k < n) :
    s.memRead a n / 256 ^ (n - 1 - k) % 256 = (s.readByte (a + k)).toNat := by
  induction n with
  | zero => omega
  | succ n ih =>
    rw [State.memRead_succ]
    have hb := (s.readByte (a + n)).isLt
    by_cases hk : k = n
    · subst hk
      simp
      omega
    · have hkn : k < n := by omega
      have e : n + 1 - 1 - k = (n - 1 - k) + 1 := by omega
      rw [e, Nat.pow_succ, Nat.mul_comm (256 ^ (n - 1 - k)) 256, ← Nat.div_div_eq_div_mul,
        show (s.memRead a n * 256 + (s.readByte (a + n)).toNat) / 256 = s.memRead a n by omega]
      exact ih hkn

end Sys2Proof.Machine
end

