-- ==== Sys2Proof/Laws/Ops.lean ====
section
/-!
SUPPORT. Laws/Ops.lean: what each shared operation does, once: registers, spans, stack, pixels, search.
-/

namespace Sys2Proof.Machine

variable (s : State)

/-! ## Registers -/

theorem regBits_le (m : Mode) : m.regBits ≤ 64 := by cases m <;> decide

theorem pow_regBits_le (m : Mode) : 2 ^ m.regBits ≤ 2 ^ 64 :=
  Nat.pow_le_pow_right (by decide) (regBits_le m)

theorem one_lt_pow_regBits (m : Mode) : 1 < 2 ^ m.regBits := by cases m <;> decide

theorem byte_le_pow_regBits (m : Mode) : 256 ≤ 2 ^ m.regBits := by cases m <;> decide

theorem maxValue_lt (m : Mode) : m.maxValue < 2 ^ m.regBits := by cases m <;> decide

theorem regBytes_bits (m : Mode) : 256 ^ m.regBytes = 2 ^ m.regBits := by cases m <;> decide

theorem State.reg_lt (i : Fin Const.physRegs) : s.reg i < 2 ^ s.mode.regBits :=
  Nat.mod_lt _ (Nat.two_pow_pos _)

theorem State.v_lt (x : RegField) : s.v x < 2 ^ s.mode.regBits := s.reg_lt _

/-- Writing a register changes that physical register only. -/
theorem State.regs_setReg_ne {i j : Fin Const.physRegs} (h : j ≠ i) (v : Nat) :
    (s.setReg i v).regs[j.val]'j.isLt = s.regs[j.val]'j.isLt := by
  simp only [State.setReg, State.setRegs_regs]
  exact Vector.getElem_set_ne _ _ fun e => h (Fin.ext e.symm)

theorem State.regs_setReg_same (i : Fin Const.physRegs) (v : Nat) :
    (s.setReg i v).regs[i.val]'i.isLt = BitVec.ofNat 64 (v % 2 ^ s.mode.regBits) := by
  simp only [State.setReg, State.setRegs_regs]
  exact Vector.getElem_set_self _

theorem toNat_ofNat_regBits (m : Mode) (v : Nat) :
    (BitVec.ofNat 64 (v % 2 ^ m.regBits)).toNat = v % 2 ^ m.regBits := by
  rw [BitVec.toNat_ofNat, Nat.mod_eq_of_lt]
  exact Nat.lt_of_lt_of_le (Nat.mod_lt _ (Nat.two_pow_pos _)) (pow_regBits_le m)

/-- A register write stores the value modulo `2^W`. -/
@[simp] theorem State.reg_setReg_same (i : Fin Const.physRegs) (v : Nat) :
    (s.setReg i v).reg i = v % 2 ^ s.mode.regBits := by
  simp only [State.reg, State.regs_setReg_same, State.setReg_mode, toNat_ofNat_regBits, Nat.mod_mod]

theorem State.reg_setReg_ne {i j : Fin Const.physRegs} (h : j ≠ i) (v : Nat) :
    (s.setReg i v).reg j = s.reg j := by
  simp only [State.reg, s.regs_setReg_ne h, State.setReg_mode]

@[simp] theorem State.reg_setFlag_same (v : Nat) :
    (s.setFlag v).reg (flagReg s.mode) = v % 2 ^ s.mode.regBits := s.reg_setReg_same _ _

theorem State.reg_setFlag_ne {j : Fin Const.physRegs} (h : j ≠ flagReg s.mode) (v : Nat) :
    (s.setFlag v).reg j = s.reg j := s.reg_setReg_ne h v

@[simp] theorem State.v_setV_same (x : RegField) (v : Nat) :
    (s.setV x v).v x = v % 2 ^ s.mode.regBits := s.reg_setReg_same _ _

/-- The flag is what remains in the flags register, also when it is the result register. -/
@[simp] theorem State.flag_setResultFlag (i : Fin Const.physRegs) (r f : Nat) :
    (s.setResultFlag i r f).reg (flagReg s.mode) = f % 2 ^ s.mode.regBits :=
  (s.setReg i r).reg_setReg_same _ _

theorem State.result_setResultFlag {i : Fin Const.physRegs} (h : i ≠ flagReg s.mode) (r f : Nat) :
    (s.setResultFlag i r f).reg i = r % 2 ^ s.mode.regBits := by
  exact (State.reg_setFlag_ne (s.setReg i r) h f).trans (s.reg_setReg_same i r)

theorem State.setReg_keeps (i : Fin Const.physRegs) (v : Nat) :
    KeepsRegsBut [i] s (s.setReg i v) := fun j hj => s.regs_setReg_ne (by simpa using hj) v

theorem State.setResultFlag_keeps (i : Fin Const.physRegs) (r f : Nat) :
    KeepsRegsBut [i, flagReg s.mode] s (s.setResultFlag i r f) := by
  intro j hj
  simp only [List.mem_cons, List.not_mem_nil, or_false, not_or] at hj
  rw [State.setResultFlag, State.setFlag]
  exact (State.regs_setReg_ne _ hj.2 f).trans (s.regs_setReg_ne hj.1 r)

theorem fieldReg_lt (x : RegField) : (fieldReg x).val < 16 := x.isLt

theorem fieldReg_injective {x y : RegField} (h : fieldReg x = fieldReg y) : x = y := by
  have h' : (fieldReg x).val = (fieldReg y).val := by rw [h]
  exact BitVec.eq_of_toNat_eq h'

/-! ## Spans -/

theorem memSize_le (m : Mode) : m.memSize ≤ Const.physMem := by cases m <;> decide

theorem State.spanOk_iff (a len : Nat) :
    s.spanOk a len = true ↔ len = 0 ∨ a + len ≤ s.mode.memSize := by
  simp [State.spanOk]

theorem State.checkSpan_ok {a len : Nat} (h : s.spanOk a len = true) (rest : State) :
    s.checkSpan a len rest = rest := by simp [State.checkSpan, h]

theorem State.checkSpan_fault {a len : Nat} (h : s.spanOk a len = false) (rest : State) :
    s.checkSpan a len rest = s.raise (.memoryFault a len) := by simp [State.checkSpan, h]

/-- A span check gives the rest of the instruction, or the report. -/
theorem State.checkSpan_cases (a len : Nat) (rest : State) :
    (s.spanOk a len = true ∧ s.checkSpan a len rest = rest) ∨
    (s.spanOk a len = false ∧ s.checkSpan a len rest = s.raise (.memoryFault a len)) := by
  cases h : s.spanOk a len
  · exact .inr ⟨rfl, s.checkSpan_fault h rest⟩
  · exact .inl ⟨rfl, s.checkSpan_ok h rest⟩

/-- `raise` reports, logs, and changes nothing else. -/
theorem State.raise_reports (e : ErrorCond) : Reports e s (s.raise e) := by
  refine ⟨rfl, rfl, fun p hp => ?_⟩
  cases p <;> first | exact fun _ => rfl | exact ⟨rfl, rfl⟩ | rfl | simp at hp

/-! ## Shapes -/

/-- A property of the rest of an instruction and of every report is a property of the checked rest. -/
theorem State.checkSpan_prop {P : State → Prop} {a len : Nat} {rest : State}
    (ok : P rest) (report : ∀ e, P (s.raise e)) : P (s.checkSpan a len rest) := by
  unfold State.checkSpan
  split
  · exact ok
  · exact report _

/-- A property of an effect and of every report is a property of the guarded effect. -/
theorem State.guarded_prop {P : State → Prop} {c : Prop} [Decidable c] {effect : State} {e : ErrorCond}
    (ok : P effect) (report : ∀ e, P (s.raise e)) : P (if c then effect else s.raise e) := by
  split
  · exact ok
  · exact report _

/-- A property of both branches of a skip. -/
theorem State.skipIf_prop {P : State → Prop} {b : Bool} (skip : P s.skip) (stay : P s) :
    P (s.skipIf b) := by
  cases b
  · exact stay
  · exact skip

/-! ## Stack -/

theorem State.slot_push_same (v : Cell64) (h : s.sp < Const.stackDepth) :
    (s.push v).slot s.sp = v := by
  simp [State.slot, State.push, h]

theorem State.slot_push_ne {k : Nat} (v : Cell64) (h : k ≠ s.sp) :
    (s.push v).slot k = s.slot k := by
  simp [State.slot, State.push, Ne.symm h]

/-! ## Pixels -/

theorem Pixels.on_insert (j k : Nat) (p : Pixels) :
    (Pixels.insert j p).on k = (decide (k = j) || p.on k) := by
  induction p with
  | nil => simp [Pixels.insert, Pixels.on]
  | cons a p ih =>
    by_cases h : j < a
    · simp [Pixels.insert, Pixels.on, h]
    · simp only [Pixels.insert, h, if_false, Pixels.on, List.contains_cons] at ih ⊢
      rw [ih]
      cases (k == a) <;> simp

/-- Toggling turns one entry over and leaves the others. -/
theorem Pixels.on_toggle (p : Pixels) (j k : Nat) :
    (p.toggle j).on k = (p.on k != decide (k = j)) := by
  unfold Pixels.toggle
  split
  · next h =>
    simp only [Pixels.on, List.contains_iff_mem] at h
    by_cases hk : k = j
    · subst hk; simp [Pixels.on, h]
    · simp [Pixels.on, hk]
  · next h =>
    rw [Pixels.on_insert]
    by_cases hk : k = j
    · subst hk; simp at h; simp [h]
    · simp [hk]

theorem Pixels.wf_iff (n : Nat) (p : Pixels) :
    Pixels.wf n p = true ↔ p.Pairwise (· < ·) ∧ ∀ j ∈ p, j < n := by
  simp [Pixels.wf]

theorem Pixels.mem_insert {j k : Nat} {p : Pixels} :
    k ∈ Pixels.insert j p ↔ k = j ∨ k ∈ p := by
  induction p with
  | nil => simp [Pixels.insert]
  | cons a p ih =>
    by_cases h : j < a
    · simp [Pixels.insert, h]
    · simp only [Pixels.insert, h, if_false, List.mem_cons, ih]; tauto

theorem Pixels.pairwise_insert {j : Nat} {p : Pixels} (sorted : p.Pairwise (· < ·)) (hj : j ∉ p) :
    (Pixels.insert j p).Pairwise (· < ·) := by
  induction p with
  | nil => simp [Pixels.insert]
  | cons a p ih =>
    rw [List.pairwise_cons] at sorted
    simp only [List.mem_cons, not_or] at hj
    by_cases h : j < a
    · simp only [Pixels.insert, h, if_true, List.pairwise_cons]
      refine ⟨fun k hk => ?_, sorted.1, sorted.2⟩
      rcases List.mem_cons.mp hk with rfl | hk
      · exact h
      · exact Nat.lt_trans h (sorted.1 k hk)
    · simp only [Pixels.insert, h, if_false, List.pairwise_cons]
      refine ⟨fun k hk => ?_, ih sorted.2 hj.2⟩
      rcases Pixels.mem_insert.mp hk with rfl | hk
      · have := hj.1; omega
      · exact sorted.1 k hk

/-- Toggling an entry of the buffer keeps the canonical form. -/
theorem Pixels.wf_toggle {n j : Nat} {p : Pixels} (hj : j < n) (h : Pixels.wf n p = true) :
    Pixels.wf n (p.toggle j) = true := by
  rw [Pixels.wf_iff] at h ⊢
  unfold Pixels.toggle
  split
  · exact ⟨h.1.sublist List.filter_sublist, fun k hk => h.2 k (List.mem_filter.mp hk).1⟩
  · next hn =>
    have hj' : j ∉ p := by simpa [Pixels.on] using hn
    refine ⟨Pixels.pairwise_insert h.1 hj', fun k hk => ?_⟩
    rcases Pixels.mem_insert.mp hk with rfl | hk
    · exact hj
    · exact h.2 k hk

theorem Pixels.wf_filter {n : Nat} {p : Pixels} (f : Nat → Bool) (h : Pixels.wf n p = true) :
    Pixels.wf n (p.filter f) = true := by
  rw [Pixels.wf_iff] at h ⊢
  exact ⟨h.1.sublist List.filter_sublist, fun k hk => h.2 k (List.mem_filter.mp hk).1⟩

/-- The hits of a longer list of pixel calls. -/
theorem State.hits_append (d e : List Dot) (j : Nat) :
    s.hits (d ++ e) j = s.hits d j + s.hits e j := by simp [State.hits]

theorem State.hits_single (d : Dot) (j : Nat) :
    s.hits [d] j = if d.bit = true ∧ s.pixelIndex d.px d.py = j then 1 else 0 := by
  by_cases h : d.bit = true ∧ s.pixelIndex d.px d.py = j
  · simp [State.hits, h]
  · have hf : (d.bit && decide (s.pixelIndex d.px d.py = j)) = false := by
      simpa using h
    simp [State.hits, hf, h]

theorem State.plot_append (d : List Dot) (e : Dot) : s.plot (d ++ [e]) = s.pixel (s.plot d) e := by
  simp [State.plot]

/-- The framebuffer after a list of pixel calls: each entry turned over once for each call on it. -/
theorem State.plot_on (d : List Dot) (j : Nat) :
    (s.plot d).1.on j = (s.fb.on j != decide (s.hits d j % 2 = 1)) := by
  induction d using List.reverseRecOn with
  | nil => simp [State.plot, State.hits]
  | append_singleton d e ih =>
    rw [State.plot_append, State.hits_append, State.hits_single, State.pixel]
    by_cases hb : e.bit = true
    · simp only [hb, if_true, true_and, Pixels.on_toggle, ih]
      by_cases hj : s.pixelIndex e.px e.py = j
      · have : (s.hits d j + 1) % 2 = 1 ↔ ¬ s.hits d j % 2 = 1 := by omega
        simp only [hj, if_true, this]
        cases s.fb.on j <;> by_cases h2 : s.hits d j % 2 = 1 <;> simp [h2]
      · simp [hj, Ne.symm hj]
    · simp [hb, ih]

/-- The collision flag after a list of pixel calls. -/
theorem State.plot_collision (d : List Dot) : (s.plot d).2 = true ↔ s.collides d := by
  induction d using List.reverseRecOn with
  | nil => simp [State.plot, State.collides, State.hits]
  | append_singleton d e ih =>
    rw [State.plot_append, State.pixel]
    by_cases hb : e.bit = true
    · simp only [hb, if_true, Bool.or_eq_true, ih, State.plot_on]
      constructor
      · rintro (⟨j, h1, h2⟩ | h)
        · refine ⟨j, ?_, ?_⟩
          · rw [State.hits_append]; omega
          · rw [State.hits_append]; rcases h2 with h2 | h2
            · exact .inl h2
            · right; omega
        · refine ⟨s.pixelIndex e.px e.py, ?_, ?_⟩
          · rw [State.hits_append, State.hits_single]; simp [hb]
          · rw [State.hits_append, State.hits_single]
            simp only [hb, true_and, if_true]
            cases hf : s.fb.on (s.pixelIndex e.px e.py)
            · right
              simp only [hf, Bool.false_bne, decide_eq_true_eq] at h
              omega
            · exact .inl rfl
      · rintro ⟨j, h1, h2⟩
        rw [State.hits_append, State.hits_single] at h1 h2
        by_cases hj : s.pixelIndex e.px e.py = j
        · simp only [hb, hj, and_self, if_true] at h1 h2
          by_cases h0 : s.hits d j = 0
          · right
            rcases h2 with h2 | h2
            · simp [hj, h2, h0]
            · omega
          · by_cases h3 : s.fb.on j = true ∨ 2 ≤ s.hits d j
            · exact .inl ⟨j, by omega, h3⟩
            · right
              have h4 : s.hits d j = 1 := by omega
              have h5 : s.fb.on j = false := by simpa using fun h => h3 (.inl h)
              simp [hj, h4, h5]
        · simp only [hb, hj, and_false, if_false, Nat.add_zero] at h1 h2
          exact .inl ⟨j, h1, h2⟩
    · have hh : ∀ j, s.hits (d ++ [e]) j = s.hits d j := fun j => by
        rw [State.hits_append, State.hits_single]; simp [hb]
      simp only [hb, Bool.false_eq_true, if_false, ih, State.collides, hh]

/-- The common effect of the drawing instructions. -/
theorem State.drawDots_drawn (d : List Dot) : Drawn d s (s.drawDots d) := by
  have hflag : (s.drawDots d).reg (flagReg s.mode) = collisionFlag (s.plot d).2 := by
    have h : (s.drawDots d).reg (flagReg s.mode) =
        collisionFlag (s.plot d).2 % 2 ^ s.mode.regBits :=
      (s.setFb (s.plot d).1).reg_setReg_same (flagReg s.mode) _
    rw [h, Nat.mod_eq_of_lt]
    have := one_lt_pow_regBits s.mode
    unfold collisionFlag boolFlag
    split <;> omega
  refine ⟨fun j => s.plot_on d j, fun h => ?_, fun h => ?_, rfl, fun p hp => ?_, fun i hi => ?_⟩
  · rw [hflag, (s.plot_collision d).mpr h]; rfl
  · rw [hflag]
    have : (s.plot d).2 = false := by
      cases hc : (s.plot d).2
      · rfl
      · exact absurd ((s.plot_collision d).mp hc) h
    rw [this]; rfl
  · cases p <;> first | exact fun _ => rfl | exact ⟨rfl, rfl⟩ | rfl | simp at hp
  · exact State.regs_setReg_ne (s.setFb (s.plot d).1) (by simpa using hi) _

theorem State.pixelIndex_lt (hw : 0 < s.dw) (hh : 0 < s.dh) (px py : Nat) :
    s.pixelIndex px py < s.pixelCount := by
  have h1 := Nat.mod_lt px hw
  have h2 := Nat.mod_lt py hh
  have h3 : (py % s.dh + 1) * s.dw ≤ s.dh * s.dw := Nat.mul_le_mul_right _ h2
  have h4 : s.pixelCount = s.dh * s.dw := Nat.mul_comm _ _
  rw [Nat.succ_mul] at h3
  rw [State.pixelIndex, h4]
  omega

theorem Config.pixels_le_phys (c : Config) (m : Mode) : c.pixels m ≤ c.physPixels := by
  cases m
  · exact Nat.le_max_left _ _
  · exact Nat.le_trans (Nat.le_max_left _ _) (Nat.le_max_right _ _)
  · exact Nat.le_trans (Nat.le_max_right _ _) (Nat.le_max_right _ _)

/-- Pixel calls on entries of the buffer keep its canonical form. -/
theorem State.wf_plot {n : Nat} (hn : s.pixelCount ≤ n) (hw : 0 < s.dw) (hh : 0 < s.dh)
    (h : Pixels.wf n s.fb = true) (d : List Dot) : Pixels.wf n (s.plot d).1 = true := by
  induction d using List.reverseRecOn with
  | nil => exact h
  | append_singleton d e ih =>
    rw [State.plot_append, State.pixel]
    split
    · exact Pixels.wf_toggle (Nat.lt_of_lt_of_le (s.pixelIndex_lt hw hh _ _) hn) ih
    · exact ih

/-! ## Bulk transfer -/

/-- The registers after the loads of a bulk transfer, by number. -/
theorem State.loadRegs_reg (t : State) {n : Nat} (hn : n ≤ 16) (i : Fin Const.physRegs) :
    (s.loadRegs t n).reg i =
      if i.val < n then t.memRead (t.index.toNat + i.val * t.mode.regBytes) t.mode.regBytes %
        2 ^ s.mode.regBits
      else s.reg i := by
  induction n with
  | zero => simp [State.loadRegs]
  | succ n ih =>
    have hf : (fieldReg (BitVec.ofNat 4 n)).val = n := by
      simp only [fieldReg, BitVec.toNat_ofNat]; omega
    by_cases hi : i.val = n
    · have : i = fieldReg (BitVec.ofNat 4 n) := Fin.ext (by omega)
      subst this
      simp [State.loadRegs, State.setV, hf]
    · have hne : i ≠ fieldReg (BitVec.ofNat 4 n) := fun e => hi (by rw [e, hf])
      rw [State.loadRegs, State.setV, State.reg_setReg_ne _ hne, ih (by omega)]
      by_cases h : i.val < n
      · simp [h, Nat.lt_succ_of_lt h]
      · have : ¬ i.val < n + 1 := by omega
        simp [h, this]

/-- The physical registers that a bulk load leaves. -/
theorem State.loadRegs_regs (t : State) {n : Nat} (hn : n ≤ 16) (i : Fin Const.physRegs)
    (hi : n ≤ i.val) : (s.loadRegs t n).regs[i.val]'i.isLt = s.regs[i.val]'i.isLt := by
  induction n with
  | zero => rfl
  | succ n ih =>
    have hf : (fieldReg (BitVec.ofNat 4 n)).val = n := by
      simp only [fieldReg, BitVec.toNat_ofNat]; omega
    rw [State.loadRegs, State.setV, State.regs_setReg_ne _ (fun e => by rw [e] at hi; omega)]
    exact ih (by omega) (by omega)

/-! ## Search -/

/-- The unit `u` of a search window matches. -/
theorem State.searchFrom_some {a needle u c r : Nat} (h : s.searchFrom a needle u c = some r) :
    u ≤ r ∧ r < u + c ∧ s.memRead (a + r * s.mode.regBytes) s.mode.regBytes = needle ∧
      ∀ k, u ≤ k → k < r → s.memRead (a + k * s.mode.regBytes) s.mode.regBytes ≠ needle := by
  induction c generalizing u with
  | zero => simp [State.searchFrom] at h
  | succ c ih =>
    rw [State.searchFrom] at h
    split at h
    · next hm =>
      cases h
      exact ⟨Nat.le_refl _, by omega, hm, fun k h1 h2 => by omega⟩
    · next hm =>
      obtain ⟨h1, h2, h3, h4⟩ := ih h
      refine ⟨by omega, by omega, h3, fun k hk1 hk2 => ?_⟩
      by_cases hk : k = u
      · rw [hk]; exact hm
      · exact h4 k (by omega) hk2

theorem State.searchFrom_none {a needle u c : Nat} (h : s.searchFrom a needle u c = none) :
    ∀ k, u ≤ k → k < u + c → s.memRead (a + k * s.mode.regBytes) s.mode.regBytes ≠ needle := by
  induction c generalizing u with
  | zero => intro k h1 h2; omega
  | succ c ih =>
    rw [State.searchFrom] at h
    split at h
    · cases h
    · next hm =>
      intro k hk1 hk2
      by_cases hk : k = u
      · rw [hk]; exact hm
      · exact ih h k (by omega) (by omega)

/-! ## Another value in one register -/

section Poke

variable (j : Fin Const.physRegs) (c : Cell64)

@[simp] theorem State.poke_mem : (s.poke j c).mem = s.mem := rfl
@[simp] theorem State.poke_index : (s.poke j c).index = s.index := rfl
@[simp] theorem State.poke_pc : (s.poke j c).pc = s.pc := rfl
@[simp] theorem State.poke_stack : (s.poke j c).stack = s.stack := rfl
@[simp] theorem State.poke_sp : (s.poke j c).sp = s.sp := rfl
@[simp] theorem State.poke_fb : (s.poke j c).fb = s.fb := rfl
@[simp] theorem State.poke_keys : (s.poke j c).keys = s.keys := rfl
@[simp] theorem State.poke_dt : (s.poke j c).dt = s.dt := rfl
@[simp] theorem State.poke_st : (s.poke j c).st = s.st := rfl
@[simp] theorem State.poke_mode : (s.poke j c).mode = s.mode := rfl
@[simp] theorem State.poke_cfg : (s.poke j c).cfg = s.cfg := rfl
@[simp] theorem State.poke_draws : (s.poke j c).draws = s.draws := rfl

/-- A poke leaves the value of every other register. -/
theorem State.reg_poke_of_ne {k : Fin Const.physRegs} (h : k ≠ j) : (s.poke j c).reg k = s.reg k := by
  have : (j.val = k.val) = False := eq_false fun e => h (Fin.ext e.symm)
  simp [State.reg, State.poke, State.setRegs, this]

/-- Poking a register before a register write is poking it after, with some value. -/
theorem State.setReg_poke (k : Fin Const.physRegs) (v : Nat) :
    ∃ d, (s.poke j c).setReg k v = (s.setReg k v).poke j d := by
  by_cases h : k = j
  · subst h
    exact ⟨BitVec.ofNat 64 (v % 2 ^ s.mode.regBits), by
      simp [State.setReg, State.poke, State.setRegs]⟩
  · refine ⟨c, ?_⟩
    have : k.val ≠ j.val := fun e => h (Fin.ext e)
    simp only [State.setReg, State.poke, State.setRegs, State.mk.injEq, true_and, and_true]
    exact Vector.set_comm _ _ this.symm

/-- A poke above register 15 leaves every register that a field names. -/
theorem State.v_poke (hj : 16 ≤ j.val) (x : RegField) : (s.poke j c).v x = s.v x :=
  reg_poke_of_ne s j c fun e => by
    have := x.isLt
    have : x.toNat = j.val := congrArg Fin.val e
    omega

end Poke

end Sys2Proof.Machine
end

