-- ==== Sys2Proof/Laws/Operands.lean ====
section
/-!
SUPPORT. Laws/Operands.lean: what each operand form and each value computation of the instructions gives,
once: bulk images, byte order, digits, rotates, bit counts, keys, pixel calls.
-/

namespace Sys2Proof.Machine

variable (s : State)

/-! ## Frames compose -/

theorem KeepsAllBut.trans {ps : List Part} {s t u : State} (h : KeepsAllBut ps s t)
    (k : KeepsAllBut ps t u) : KeepsAllBut ps s u := by
  intro p hp
  have a := h p hp
  have b := k p hp
  cases p <;> simp only [Part.same] at * <;>
    first
    | exact fun c => (b c).trans (a c)
    | exact b.trans a
    | exact ⟨b.1.trans a.1, b.2.trans a.2⟩

theorem State.setV_only (x : RegField) (v : Nat) : OnlyRegs [fieldReg x] s (s.setV x v) := by
  refine ⟨fun p hp => ?_, s.setReg_keeps _ _⟩
  cases p <;> first | exact fun _ => rfl | exact ⟨rfl, rfl⟩ | rfl | simp at hp

theorem State.setResultFlag_only (x : RegField) (r f : Nat) :
    OnlyRegs [fieldReg x, flagReg s.mode] s (s.setResultFlag (fieldReg x) r f) := by
  refine ⟨fun p hp => ?_, s.setResultFlag_keeps _ _ _⟩
  cases p <;> first | exact fun _ => rfl | exact ⟨rfl, rfl⟩ | rfl | simp at hp

theorem State.skipIf_only (b : Bool) : KeepsAllBut [.pc] s (s.skipIf b) := by
  cases b <;> (intro p hp; cases p <;> first | exact fun _ => rfl | exact ⟨rfl, rfl⟩ | rfl | simp at hp)

theorem State.writeBytes_only (a : Nat) (bs : List Byte) :
    KeepsAllBut [.mem] s (s.writeBytes a bs) := by
  intro p hp
  cases p <;> first | (simp at hp; done) | simp [Part.same]

theorem boolFlag_mod (m : Mode) (b : Bool) : boolFlag b % 2 ^ m.regBits = boolFlag b := by
  apply Nat.mod_eq_of_lt
  have := one_lt_pow_regBits m
  unfold boolFlag
  split <;> omega

/-! ## Bytes in memory -/

theorem State.readBytes_writeBytes (a : Nat) (bs : List Byte) :
    (s.writeBytes a bs).readBytes a bs.length = bs := by
  apply List.ext_getElem
  · simp
  · intro k _ h
    simp [State.readBytes, State.readByte_writeBytes_inside _ _ _ _ h]

/-- The number a byte list stands for is the number it was made from, modulo its size. -/
theorem bigEndian_bytesOf (n v : Nat) : bigEndian (bytesOf n v) = v % 256 ^ n := by
  induction n generalizing v with
  | zero => simp [bytesOf, bigEndian, Nat.mod_one]
  | succ n ih =>
    have e : bytesOf (n + 1) v = bytesOf n (v / 256) ++ [BitVec.ofNat 8 v] := by
      simp only [bytesOf, List.range_succ, List.map_append, List.map_cons, List.map_nil]
      congr 1
      · apply List.map_congr_left
        intro k hk
        have hk := List.mem_range.mp hk
        rw [Nat.div_div_eq_div_mul, ← Nat.pow_succ']
        congr 3
        omega
      · simp
    rw [e, bigEndian_append, ih, Nat.pow_succ', Nat.mod_mul]
    simp
    omega

/-- The decimal digits read most significant first. -/
theorem bcdDigits_value (n v : Nat) :
    (bcdDigits n v).foldl (fun a b => a * 10 + b.toNat) 0 = v % 10 ^ n := by
  induction n generalizing v with
  | zero => simp [bcdDigits, Nat.mod_one]
  | succ n ih =>
    have e : bcdDigits (n + 1) v = bcdDigits n (v / 10) ++ [BitVec.ofNat 8 (v % 10)] := by
      simp only [bcdDigits, List.range_succ, List.map_append, List.map_cons, List.map_nil]
      congr 1
      · apply List.map_congr_left
        intro k hk
        have hk := List.mem_range.mp hk
        rw [Nat.div_div_eq_div_mul, ← Nat.pow_succ']
        congr 4
        omega
      · simp
    rw [e, List.foldl_append, ih, Nat.pow_succ', Nat.mod_mul]
    simp
    omega

theorem pow_regBits_le_digits (m : Mode) : 2 ^ m.regBits ≤ 10 ^ m.digits := by cases m <;> decide

/-! ## Bulk images -/

theorem flatMap_range_getElem (f : Nat → List Byte) {n m i k : Nat} (len : ∀ i, (f i).length = n)
    (hi : i < m) (hk : k < n) (h : i * n + k < ((List.range m).flatMap f).length) :
    ((List.range m).flatMap f)[i * n + k] = (f i)[k]'(by rw [len]; exact hk) := by
  induction m with
  | zero => omega
  | succ m ih =>
    have hl : ((List.range m).flatMap f).length = m * n := by simp [List.length_flatMap, len]
    simp only [List.range_succ, List.flatMap_append, List.flatMap_cons, List.flatMap_nil,
      List.append_nil]
    by_cases him : i = m
    · subst him
      rw [List.getElem_append_right (by omega)]
      simp [hl]
    · have hlt : (i + 1) * n ≤ m * n := Nat.mul_le_mul_right _ (by omega)
      rw [Nat.succ_mul] at hlt
      rw [List.getElem_append_left (by omega)]
      exact ih (by omega) _

@[simp] theorem State.bulkBytes_length (x : RegField) : (s.bulkBytes x).length = s.bulkLength x := by
  simp [State.bulkBytes, State.bulkLength, List.length_flatMap]

theorem State.bulk_offset_lt {x : RegField} {i k : Nat} (hi : i ≤ x.toNat)
    (hk : k < s.mode.regBytes) : i * s.mode.regBytes + k < s.bulkLength x := by
  have h : (i + 1) * s.mode.regBytes ≤ (x.toNat + 1) * s.mode.regBytes :=
    Nat.mul_le_mul_right _ (by omega)
  rw [Nat.succ_mul] at h
  unfold State.bulkLength
  omega

/-- Byte `k` of the image of register `i`. -/
theorem State.bulkBytes_getElem {x : RegField} {i k : Nat} (hi : i ≤ x.toNat)
    (hk : k < s.mode.regBytes) (h : i * s.mode.regBytes + k < (s.bulkBytes x).length) :
    (s.bulkBytes x)[i * s.mode.regBytes + k] =
      BitVec.ofNat 8 (s.v (BitVec.ofNat 4 i) / 256 ^ (s.mode.regBytes - 1 - k)) :=
  (flatMap_range_getElem (fun i => bytesOf s.mode.regBytes (s.v (BitVec.ofNat 4 i)))
    (fun i => by simp) (by omega) hk h).trans (bytesOf_getElem _ _ _ _)

/-- The registers after a bulk load, by field. -/
theorem State.loadRegs_v (t : State) {x : RegField} {i : Nat} (hi : i ≤ x.toNat) :
    (s.loadRegs t (x.toNat + 1)).v (BitVec.ofNat 4 i) =
      t.memRead (t.index.toNat + i * t.mode.regBytes) t.mode.regBytes % 2 ^ s.mode.regBits := by
  have hx := x.isLt
  have hf : (fieldReg (BitVec.ofNat 4 i)).val = i := by
    simp only [fieldReg, BitVec.toNat_ofNat]; omega
  rw [State.v, State.loadRegs_reg _ _ (by omega), if_pos (by rw [hf]; omega), hf]

@[simp] theorem State.autoAdvance_v (len : Nat) (x : RegField) :
    (s.autoAdvance len).v x = s.v x := by simp [State.v, State.reg]

/-! ## Values -/

theorem popCount_eq_sum (w v : Nat) :
    popCount w v = (Finset.range w).sum fun k => if v.testBit k then 1 else 0 := by
  unfold popCount
  induction w with
  | zero => rfl
  | succ w ih =>
    rw [List.range_succ, List.filter_append, List.length_append, Finset.sum_range_succ, ih]
    cases h : v.testBit w <;> simp [h]

theorem popCount_le (w v : Nat) : popCount w v ≤ w :=
  Nat.le_trans (List.length_filter_le _ _) (by simp)

theorem subMod_mod (m : Mode) {a b : Nat} (ha : a < 2 ^ m.regBits) (hb : b < 2 ^ m.regBits) :
    subMod m a b % 2 ^ m.regBits = if b ≤ a then a - b else a + 2 ^ m.regBits - b := by
  simp only [subMod, Nat.mod_mod]
  split
  · rw [show a + 2 ^ m.regBits - b = (a - b) + 2 ^ m.regBits by omega, Nat.add_mod_right,
      Nat.mod_eq_of_lt (by omega)]
  · rw [Nat.mod_eq_of_lt (by omega)]

/-- The pair of a register is another register. -/
theorem State.pairReg_ne (x : RegField) : s.pairReg x ≠ fieldReg x := by
  intro e
  have e := congrArg Fin.val e
  have hx := x.isLt
  simp only [State.pairReg, nextReg, fieldReg] at e
  cases hm : s.mode <;> rw [hm] at e <;> simp [Mode.regCount] at e <;> omega

theorem tick_toNat (t : BitVec 8) : (tick t).toNat = t.toNat - 1 := by
  unfold tick
  split
  · next h =>
    rw [BitVec.toNat_sub_of_le (by show 1 ≤ t.toNat; exact h)]
    rfl
  · omega

/-! ## Rotates -/

theorem testBit_mul_add {a b n : Nat} (hb : b < 2 ^ n) (k : Nat) :
    (a * 2 ^ n + b).testBit k = if k < n then b.testBit k else a.testBit (k - n) := by
  rw [Nat.mul_comm, Nat.testBit_two_pow_mul_add a hb]

theorem pow_split {w r : Nat} (hr : r ≤ w) : 2 ^ w = 2 ^ r * 2 ^ (w - r) := by
  rw [← Nat.pow_add]
  congr 1
  omega

/-- The place `r` above `k` in a circle of `w` places. -/
theorem circle_place {w r k : Nat} (hr : r < w) (hk : k < w) :
    (k + r) % w = if k + r < w then k + r else k + r - w := by
  split
  · exact Nat.mod_eq_of_lt ‹_›
  · rw [Nat.mod_eq_sub_mod (by omega), Nat.mod_eq_of_lt (by omega)]

/-- Bit `k` of a value rotated right is the bit `r` places above in the circle. -/
theorem rotateRight_testBit {w a r k : Nat} (ha : a < 2 ^ w) (hr : r < w) (hk : k < w) :
    (rotateRight w a r).testBit k = a.testBit ((k + r) % w) := by
  rw [circle_place hr hk]
  unfold rotateRight
  split
  · next h0 => subst h0; simp [hk]
  · have h3 : a / 2 ^ r < 2 ^ (w - r) :=
      Nat.div_lt_of_lt_mul (by rw [← pow_split (Nat.le_of_lt hr)]; exact ha)
    rw [Nat.add_comm, testBit_mul_add h3]
    by_cases hk2 : k < w - r
    · rw [if_pos hk2, if_pos (by omega), Nat.testBit_div_two_pow, Nat.add_comm]
    · rw [if_neg hk2, if_neg (by omega), Nat.testBit_mod_two_pow,
        decide_eq_true (show k - (w - r) < r by omega), Bool.true_and]
      congr 1
      omega

/-- Bit `k` of a value moves to the place `r` above it in the circle when it is rotated left. -/
theorem rotateLeft_testBit {w a r k : Nat} (ha : a < 2 ^ w) (hr : r < w) (hk : k < w) :
    (rotateLeft w a r).testBit ((k + r) % w) = a.testBit k := by
  rw [circle_place hr hk]
  unfold rotateLeft
  split
  · next h0 => subst h0; simp [hk]
  · have h2 : 2 ^ w = 2 ^ (w - r) * 2 ^ r := by
      rw [Nat.mul_comm]; exact pow_split (Nat.le_of_lt hr)
    have h3 : a / 2 ^ (w - r) < 2 ^ r := Nat.div_lt_of_lt_mul (by rw [← h2]; exact ha)
    rw [h2, Nat.mul_mod_mul_right, testBit_mul_add h3]
    by_cases hk2 : k + r < w
    · rw [if_pos hk2, if_neg (by omega), Nat.add_sub_cancel, Nat.testBit_mod_two_pow,
        decide_eq_true (show k < w - r by omega), Bool.true_and]
    · rw [if_neg hk2, if_pos (by omega), Nat.testBit_div_two_pow]
      congr 1
      omega

theorem rotateRight_lt {w a r : Nat} (ha : a < 2 ^ w) (hr : r < w) : rotateRight w a r < 2 ^ w := by
  unfold rotateRight
  split
  · exact ha
  · have h2 := pow_split (Nat.le_of_lt hr)
    have h3 : a / 2 ^ r < 2 ^ (w - r) := Nat.div_lt_of_lt_mul (by rw [← h2]; exact ha)
    have h4 := Nat.mod_lt a (Nat.two_pow_pos r)
    have h5 : (a % 2 ^ r + 1) * 2 ^ (w - r) ≤ 2 ^ r * 2 ^ (w - r) := Nat.mul_le_mul_right _ h4
    rw [Nat.succ_mul] at h5
    omega

theorem rotateLeft_lt {w a r : Nat} (ha : a < 2 ^ w) (hr : r < w) : rotateLeft w a r < 2 ^ w := by
  unfold rotateLeft
  split
  · exact ha
  · have h2 : 2 ^ w = 2 ^ (w - r) * 2 ^ r := by
      rw [Nat.mul_comm]; exact pow_split (Nat.le_of_lt hr)
    have h3 : a / 2 ^ (w - r) < 2 ^ r := Nat.div_lt_of_lt_mul (by rw [← h2]; exact ha)
    have h4 := Nat.mod_lt a (Nat.two_pow_pos (w - r))
    have h5 : (a % 2 ^ (w - r) + 1) * 2 ^ r ≤ 2 ^ (w - r) * 2 ^ r := Nat.mul_le_mul_right _ h4
    rw [Nat.succ_mul] at h5
    rw [h2, Nat.mul_mod_mul_right]
    omega

/-! ## Keys -/

theorem State.firstKey_some {k : Fin Const.nkeys} (down : s.keyDown k = true)
    (least : ∀ j, j < k → s.keyDown j = false) : s.firstKey = some k := by
  unfold State.firstKey
  rw [List.find?_eq_some_iff_getElem]
  refine ⟨down, k.val, by simp, by simp, fun j hj => ?_⟩
  simp only [List.getElem_finRange]
  simpa using least ⟨j, Nat.lt_trans hj k.isLt⟩ hj

theorem State.firstKey_none (up : ∀ k, s.keyDown k = false) : s.firstKey = none := by
  unfold State.firstKey
  rw [List.find?_eq_none]
  intro k _
  simp [up k]

end Sys2Proof.Machine
end

