-- ==== Sys2Proof/Laws/PerInstr.lean ====
section
/-!
SUPPORT. Laws/PerInstr.lean: for each instruction, the bits that a row of the decode table fixes stand in the
word that the row gives the instruction (spec/30_encoding.md, R80, columns "mask" and "match").
-/

namespace Sys2Proof.Laws

/-- In every row of the instruction's operation the fixed bits stand in the instruction's word. -/
def FixedBits.Statement (i : Instr) : Prop :=
  ∀ r : Row, r.wf = true → r.op = i.op → r.word i &&& r.mask = r.value

namespace FixedBits

theorem cls : Statement .cls := fun _ => Row.word_and_mask
theorem ret : Statement .ret := fun _ => Row.word_and_mask
theorem retv : Statement .retv := fun _ => Row.word_and_mask
theorem callp (nnn : BitVec 12) : Statement (.callp nnn) := fun _ => Row.word_and_mask
theorem jp (nnn : BitVec 12) : Statement (.jp nnn) := fun _ => Row.word_and_mask
theorem call (nnn : BitVec 12) : Statement (.call nnn) := fun _ => Row.word_and_mask
theorem seImm (x : RegField) (kk : BitVec 8) : Statement (.seImm x kk) := fun _ => Row.word_and_mask
theorem sneImm (x : RegField) (kk : BitVec 8) : Statement (.sneImm x kk) := fun _ => Row.word_and_mask
theorem seReg (x y : RegField) : Statement (.seReg x y) := fun _ => Row.word_and_mask
theorem vadd (x y : RegField) : Statement (.vadd x y) := fun _ => Row.word_and_mask
theorem dot (x y : RegField) : Statement (.dot x y) := fun _ => Row.word_and_mask
theorem bcopy (x y : RegField) : Statement (.bcopy x y) := fun _ => Row.word_and_mask
theorem bsrch (x y : RegField) : Statement (.bsrch x y) := fun _ => Row.word_and_mask
theorem rndb (x y : RegField) : Statement (.rndb x y) := fun _ => Row.word_and_mask
theorem ldImm (x : RegField) (kk : BitVec 8) : Statement (.ldImm x kk) := fun _ => Row.word_and_mask
theorem addImm (x : RegField) (kk : BitVec 8) : Statement (.addImm x kk) := fun _ => Row.word_and_mask
theorem ldReg (x y : RegField) : Statement (.ldReg x y) := fun _ => Row.word_and_mask
theorem orReg (x y : RegField) : Statement (.orReg x y) := fun _ => Row.word_and_mask
theorem andReg (x y : RegField) : Statement (.andReg x y) := fun _ => Row.word_and_mask
theorem xorReg (x y : RegField) : Statement (.xorReg x y) := fun _ => Row.word_and_mask
theorem addReg (x y : RegField) : Statement (.addReg x y) := fun _ => Row.word_and_mask
theorem sub (x y : RegField) : Statement (.sub x y) := fun _ => Row.word_and_mask
theorem shr (x : RegField) : Statement (.shr x) := fun _ => Row.word_and_mask
theorem subn (x y : RegField) : Statement (.subn x y) := fun _ => Row.word_and_mask
theorem mul (x y : RegField) : Statement (.mul x y) := fun _ => Row.word_and_mask
theorem div (x y : RegField) : Statement (.div x y) := fun _ => Row.word_and_mask
theorem ror (x y : RegField) : Statement (.ror x y) := fun _ => Row.word_and_mask
theorem rol (x y : RegField) : Statement (.rol x y) := fun _ => Row.word_and_mask
theorem popcnt (x y : RegField) : Statement (.popcnt x y) := fun _ => Row.word_and_mask
theorem shl (x : RegField) : Statement (.shl x) := fun _ => Row.word_and_mask
theorem sneReg (x y : RegField) : Statement (.sneReg x y) := fun _ => Row.word_and_mask
theorem drw16 (x y : RegField) : Statement (.drw16 x y) := fun _ => Row.word_and_mask
theorem drw32 (x y : RegField) : Statement (.drw32 x y) := fun _ => Row.word_and_mask
theorem hline (x y : RegField) : Statement (.hline x y) := fun _ => Row.word_and_mask
theorem vline (x y : RegField) : Statement (.vline x y) := fun _ => Row.word_and_mask
theorem ldI (nnn : BitVec 12) : Statement (.ldI nnn) := fun _ => Row.word_and_mask
theorem jpV0 (nnn : BitVec 12) : Statement (.jpV0 nnn) := fun _ => Row.word_and_mask
theorem rnd (x : RegField) (kk : BitVec 8) : Statement (.rnd x kk) := fun _ => Row.word_and_mask
theorem drw (x y : RegField) (n : BitVec 4) : Statement (.drw x y n) := fun _ => Row.word_and_mask
theorem skp (x : RegField) : Statement (.skp x) := fun _ => Row.word_and_mask
theorem sknp (x : RegField) : Statement (.sknp x) := fun _ => Row.word_and_mask
theorem rndw (x : RegField) : Statement (.rndw x) := fun _ => Row.word_and_mask
theorem ldVxDt (x : RegField) : Statement (.ldVxDt x) := fun _ => Row.word_and_mask
theorem ldVxK (x : RegField) : Statement (.ldVxK x) := fun _ => Row.word_and_mask
theorem ldDtVx (x : RegField) : Statement (.ldDtVx x) := fun _ => Row.word_and_mask
theorem ldStVx (x : RegField) : Statement (.ldStVx x) := fun _ => Row.word_and_mask
theorem addI (x : RegField) : Statement (.addI x) := fun _ => Row.word_and_mask
theorem ldF (x : RegField) : Statement (.ldF x) := fun _ => Row.word_and_mask
theorem ldB (x : RegField) : Statement (.ldB x) := fun _ => Row.word_and_mask
theorem ldMemVx (x : RegField) : Statement (.ldMemVx x) := fun _ => Row.word_and_mask
theorem ldVxMem (x : RegField) : Statement (.ldVxMem x) := fun _ => Row.word_and_mask

end FixedBits

end Sys2Proof.Laws
end

