-- ==== Sys2Proof/Tests/Slice0.lean ====
section
/-!
SUPPORT. Tests/Slice0.lean: small tests. Expected values are those of spec/95_test_vectors.md (the
vector's name stands before each test) or of the encodings of spec/30_encoding.md, R80; and for each
statement with hypotheses a witness that meets them.
-/

namespace Sys2Proof.Tests

open Sys2Proof Sys2Proof.Machine

/-! ## Helpers -/

/-- The state after reset in a mode, with some registers written. -/
def start (m : Mode) (regs : List (Fin 32 × Nat)) : State :=
  regs.foldl (fun s r => s.setReg r.1 r.2) (State.reset.putMode m)

/-- The same with `I` and with bytes from that address on. -/
def startAt (m : Mode) (regs : List (Fin 32 × Nat)) (a : Nat) (bytes : List Byte) : State :=
  ((start m regs).setIndexNat a).writeBytes a bytes

/-- The state in an answer, or another one. -/
def stateOr (s : State) : Result → State
  | .next t => t
  | .fault _ => s
  | .refused _ => s

/-- An answer is a next state. -/
def isNext : Result → Bool
  | .next _ => true
  | .fault _ => false
  | .refused _ => false

theorem next_of_isNext {r : Result} (h : isNext r = true) : ∃ t, r = .next t := by
  cases r with
  | next t => exact ⟨t, rfl⟩
  | fault r => cases r
  | refused r => cases h

/-- The state after the step that fetches a word placed at `pc`. -/
def ran (w : Nat) (s : State) : State :=
  stateOr s (step (s.withFetchWord 16 w))

/-- The state after an instruction. -/
def after (i : Instr) (s : State) : State := stateOr s (exec i s)

/-- `pc` of a state as a number. -/
def pcOf (s : State) : Nat := s.pc.toNat

/-! ## Well-formedness: an ill-formed term for each check -/

theorem test_wf_callp_below_0x100 :
    (Instr.callp 0x0FF#12).wellFormed tableR80 .extended64 = false := by decide
theorem test_wf_callp_from_0x100 :
    (Instr.callp 0x100#12).wellFormed tableR80 .extended16 = true := by decide
theorem test_wf_extended_in_legacy8 : (Instr.mul 0#4 1#4).wellFormed tableR80 .legacy8 = false := by decide
theorem test_wf_drw32_in_extended16 :
    (Instr.drw32 0#4 1#4).wellFormed tableR80 .extended16 = false := by decide
theorem test_wf_no_row : (Instr.jp 0x200#12).wellFormed [] .extended64 = false := by decide
theorem test_wf_drw32_in_extended64 :
    (Instr.drw32 0#4 1#4).wellFormed tableR80 .extended64 = true := by decide

/-! ## Decoding: one word for each constructor, written out from its pattern in R80 -/

theorem test_decode_family_0 :
    decodeWord tableR80 .legacy8 0b0000000011100000#16 = some .cls ∧
    decodeWord tableR80 .legacy8 0b0000000011101110#16 = some .ret ∧
    decodeWord tableR80 .extended16 0b0000000011101111#16 = some .retv ∧
    decodeWord tableR80 .legacy8 0b0000000011101111#16 = none ∧
    decodeWord tableR80 .extended16 0b0000000100000000#16 = some (.callp 0x100#12) := by decide

theorem test_decode_jumps :
    decodeWord tableR80 .legacy8 0b0001111111111111#16 = some (.jp 0xFFF#12) ∧
    decodeWord tableR80 .legacy8 0b0010001100000000#16 = some (.call 0x300#12) ∧
    decodeWord tableR80 .legacy8 0b1011001100000001#16 = some (.jpV0 0x301#12) := by decide

theorem test_decode_skips :
    decodeWord tableR80 .legacy8 0b0011001100101010#16 = some (.seImm 3#4 0x2A#8) ∧
    decodeWord tableR80 .legacy8 0b0100001100101010#16 = some (.sneImm 3#4 0x2A#8) ∧
    decodeWord tableR80 .legacy8 0b0101000100100000#16 = some (.seReg 1#4 2#4) ∧
    decodeWord tableR80 .legacy8 0b1001000100100000#16 = some (.sneReg 1#4 2#4) := by decide

theorem test_decode_arithmetic :
    decodeWord tableR80 .legacy8 0b0110001011111111#16 = some (.ldImm 2#4 0xFF#8) ∧
    decodeWord tableR80 .legacy8 0b0111001000000101#16 = some (.addImm 2#4 5#8) ∧
    decodeWord tableR80 .legacy8 0b1000101010110000#16 = some (.ldReg 0xA#4 0xB#4) ∧
    decodeWord tableR80 .legacy8 0b1000101010110001#16 = some (.orReg 0xA#4 0xB#4) ∧
    decodeWord tableR80 .legacy8 0b1000101010110010#16 = some (.andReg 0xA#4 0xB#4) ∧
    decodeWord tableR80 .legacy8 0b1000101010110011#16 = some (.xorReg 0xA#4 0xB#4) ∧
    decodeWord tableR80 .legacy8 0b1000101010110100#16 = some (.addReg 0xA#4 0xB#4) ∧
    decodeWord tableR80 .legacy8 0b1000101010110101#16 = some (.sub 0xA#4 0xB#4) ∧
    decodeWord tableR80 .legacy8 0b1000101010110110#16 = some (.shr 0xA#4) ∧
    decodeWord tableR80 .legacy8 0b1000101010110111#16 = some (.subn 0xA#4 0xB#4) ∧
    decodeWord tableR80 .legacy8 0b1000101010111110#16 = some (.shl 0xA#4) := by decide

theorem test_decode_extended_math :
    decodeWord tableR80 .extended16 0b0101101010110001#16 = some (.vadd 0xA#4 0xB#4) ∧
    decodeWord tableR80 .extended16 0b0101101010110010#16 = some (.dot 0xA#4 0xB#4) ∧
    decodeWord tableR80 .extended16 0b1000101010111000#16 = some (.mul 0xA#4 0xB#4) ∧
    decodeWord tableR80 .extended16 0b1000101010111001#16 = some (.div 0xA#4 0xB#4) ∧
    decodeWord tableR80 .extended16 0b1000101010111010#16 = some (.ror 0xA#4 0xB#4) ∧
    decodeWord tableR80 .extended16 0b1000101010111011#16 = some (.rol 0xA#4 0xB#4) ∧
    decodeWord tableR80 .extended16 0b1000101010111100#16 = some (.popcnt 0xA#4 0xB#4) := by decide

theorem test_decode_memory_block_and_display :
    decodeWord tableR80 .extended16 0b0101101010110011#16 = some (.bcopy 0xA#4 0xB#4) ∧
    decodeWord tableR80 .extended16 0b0101101010110100#16 = some (.bsrch 0xA#4 0xB#4) ∧
    decodeWord tableR80 .legacy8 0b1101000100100101#16 = some (.drw 1#4 2#4 5#4) ∧
    decodeWord tableR80 .extended16 0b1001101010110001#16 = some (.drw16 0xA#4 0xB#4) ∧
    decodeWord tableR80 .extended64 0b1001101010110010#16 = some (.drw32 0xA#4 0xB#4) ∧
    decodeWord tableR80 .extended16 0b1001101010110010#16 = none ∧
    decodeWord tableR80 .extended16 0b1001101010110011#16 = some (.hline 0xA#4 0xB#4) ∧
    decodeWord tableR80 .extended16 0b1001101010110100#16 = some (.vline 0xA#4 0xB#4) := by decide

theorem test_decode_input_timers_random :
    decodeWord tableR80 .legacy8 0b1110000110011110#16 = some (.skp 1#4) ∧
    decodeWord tableR80 .legacy8 0b1110000110100001#16 = some (.sknp 1#4) ∧
    decodeWord tableR80 .legacy8 0b1111000100000111#16 = some (.ldVxDt 1#4) ∧
    decodeWord tableR80 .legacy8 0b1111000100001010#16 = some (.ldVxK 1#4) ∧
    decodeWord tableR80 .legacy8 0b1111000100010101#16 = some (.ldDtVx 1#4) ∧
    decodeWord tableR80 .legacy8 0b1111000100011000#16 = some (.ldStVx 1#4) ∧
    decodeWord tableR80 .legacy8 0b1100000100001111#16 = some (.rnd 1#4 0x0F#8) ∧
    decodeWord tableR80 .extended16 0b1111001000000001#16 = some (.rndw 2#4) ∧
    decodeWord tableR80 .extended16 0b0101101010110101#16 = some (.rndb 0xA#4 0xB#4) := by decide

theorem test_decode_index_and_bulk :
    decodeWord tableR80 .legacy8 0b1010001000110100#16 = some (.ldI 0x234#12) ∧
    decodeWord tableR80 .legacy8 0b1111000100011110#16 = some (.addI 1#4) ∧
    decodeWord tableR80 .legacy8 0b1111000100101001#16 = some (.ldF 1#4) ∧
    decodeWord tableR80 .legacy8 0b1111000100110011#16 = some (.ldB 1#4) ∧
    decodeWord tableR80 .legacy8 0b1111000101010101#16 = some (.ldMemVx 1#4) ∧
    decodeWord tableR80 .legacy8 0b1111000101100101#16 = some (.ldVxMem 1#4) := by decide

theorem test_decode_truncated : decode tableR80 .extended64 [0xA2#8] = .error .truncated := by rfl
theorem test_decode_unassigned :
    decode tableR80 .extended64 [0x8A#8, 0xBD#8, 0x00#8] = .error (.unknownOpcode 0x8ABD#16) := by rfl
theorem test_encode_ld_i :
    (encode tableR80 .legacy8 (.ldI 0x234#12)).map wordBytes = some [0xA2#8, 0x34#8] := by decide
theorem test_encode_drw32_in_extended16 : encode tableR80 .extended16 (.drw32 0#4 1#4) = none := by decide
theorem test_table_word : decodeTableWord 16 0x9AB2 = some (.drw32 0xA#4 0xB#4) := by decide
theorem test_assembly_ld_i : (Instr.ldI 0x234#12).assembly = "LD I, 0x234" := by decide

/-! ## Decode tables: an ill-formed one for each check, and another numbering (R79) -/

theorem test_table_value_outside_mask :
    tableOk [⟨0xF000#16, 0x1001#16, .all, 0, .jp⟩] = false := by decide
theorem test_table_fixed_bit_on_operand :
    tableOk [⟨0xFF00#16, 0x1200#16, .all, 0, .jp⟩] = false := by decide
theorem test_table_constraint_without_address :
    tableOk [⟨0xF00F#16, 0x5000#16, .all, 0x100, .seReg⟩] = false := by decide
theorem test_table_rows_overlap :
    tableOk [⟨0xFFFF#16, 0x00E0#16, .all, 0, .cls⟩, ⟨0xF000#16, 0x0000#16, .x64, 0, .callp⟩] = false := by
  decide
theorem test_table_rows_kept_apart_by_constraint :
    tableOk [⟨0xFFFF#16, 0x00E0#16, .all, 0, .cls⟩, ⟨0xF000#16, 0x0000#16, .ext, 0x100, .callp⟩] = true := by
  decide

/-- A machine in whose numbering `2nnn` is the jump and nothing else is an instruction. -/
def renumbered : State :=
  State.resetWith { Config.defaults with table := [⟨0xF000#16, 0x2000#16, .all, 0, .jp⟩] }

theorem test_other_numbering :
    pcOf (ran 0x2204 renumbered) = 0x204 ∧ (ran 0x2204 renumbered).sp = 0 ∧
    (ran 0x1204 renumbered).status = .error (.unknownOpcode 0x1204#16 0x200#16) := by decide

/-! ## Control flow -/

/-- T1. -/
theorem test_jp : pcOf (ran 0x1204 (start .legacy8 [])) = 0x204 := by decide
/-- T18. -/
theorem test_jp_v0_beyond_12_bits : pcOf (ran 0xBFFF (start .legacy8 [(0, 0xFF)])) = 0x10FE := by decide
/-- T19. -/
theorem test_jp_v0_wraps :
    pcOf (ran 0xB300 (start .extended64 [(0, 0xFFFFFFFFFFFFFFFF)])) = 0x2FF := by decide
/-- T3. -/
theorem test_call :
    let t := ran 0x2300 (start .legacy8 [])
    pcOf t = 0x300 ∧ t.sp = 1 ∧ t.slot 0 = 0x202#64 := by decide
/-- T5. -/
theorem test_call_on_full_stack :
    let t := ran 0x2300 ((start .legacy8 []).setStack (Vector.replicate 16 0x202#64) 16)
    pcOf t = 0x202 ∧ t.sp = 16 ∧ t.status = .error (.stackOverflow 0x200#16) := by decide
/-- T22. -/
theorem test_ret_takes_low_16_bits :
    let t := ran 0x00EE ((start .legacy8 []).push 0x1234567890ABCDEF#64)
    pcOf t = 0xCDEF ∧ t.sp = 0 := by decide
/-- T6. -/
theorem test_ret_on_empty_stack :
    (ran 0x00EE (start .legacy8 [])).status = .error (.stackUnderflow 0x200#16) := by decide
/-- T7. -/
theorem test_se_imm : pcOf (ran 0x332A (start .legacy8 [(3, 0x2A)])) = 0x204 := by decide
/-- T11. -/
theorem test_se_imm_whole_register :
    pcOf (ran 0x3305 (start .extended16 [(3, 0x105)])) = 0x202 := by decide
/-- T12. -/
theorem test_sne_imm : pcOf (ran 0x4305 (start .extended16 [(3, 0x105)])) = 0x204 := by decide
/-- T14. -/
theorem test_se_reg : pcOf (ran 0x5120 (start .legacy8 [(1, 7), (2, 8)])) = 0x202 := by decide
/-- T15. -/
theorem test_sne_reg : pcOf (ran 0x9120 (start .legacy8 [(1, 7), (2, 8)])) = 0x204 := by decide

/-! ## Immediate and arithmetic -/

/-- A2. -/
theorem test_ld_imm_zero_extends : (ran 0x62FF (start .extended16 [(2, 0xABCD)])).v 2#4 = 0xFF := by
  decide
/-- A5. -/
theorem test_add_imm_wraps_without_flag :
    let t := ran 0x7201 (start .legacy8 [(2, 0xFF)])
    t.v 2#4 = 0 ∧ t.reg 15 = 0 := by decide
/-- A9. -/
theorem test_ld_reg : (ran 0x8010 (start .legacy8 [(1, 9)])).v 0#4 = 9 := by decide
/-- A10. -/
theorem test_or_keeps_the_flags_register :
    let t := ran 0x8011 (start .legacy8 [(0, 0xF0), (1, 0x0F), (15, 1)])
    t.v 0#4 = 0xFF ∧ t.reg 15 = 1 := by decide
/-- A11. -/
theorem test_and : (ran 0x8012 (start .legacy8 [(0, 0xF3), (1, 0x0F)])).v 0#4 = 0x03 := by decide
/-- A12. -/
theorem test_xor : (ran 0x8013 (start .legacy8 [(0, 0xFF), (1, 0x0F)])).v 0#4 = 0xF0 := by decide
/-- A20. -/
theorem test_add_on_the_flags_register :
    (ran 0x8F14 (start .legacy8 [(15, 0xFF), (1, 1)])).reg 15 = 1 := by decide
/-- A19. -/
theorem test_add_in_extended64_flags_v31 :
    let t := ran 0x8F14 (start .extended64 [(15, 0xFF), (1, 1)])
    t.reg 15 = 0x100 ∧ t.reg 31 = 0 := by decide
/-- A23. -/
theorem test_sub_borrows :
    let t := ran 0x8015 (start .legacy8 [(0, 5), (1, 7), (15, 1)])
    t.v 0#4 = 0xFE ∧ t.reg 15 = 0 := by decide
/-- A24. -/
theorem test_sub_of_equals :
    let t := ran 0x8015 (start .legacy8 [(0, 7), (1, 7)])
    t.v 0#4 = 0 ∧ t.reg 15 = 1 := by decide
/-- A28. -/
theorem test_subn :
    let t := ran 0x8017 (start .legacy8 [(0, 7), (1, 5), (15, 1)])
    t.v 0#4 = 0xFE ∧ t.reg 15 = 0 := by decide
/-- A31. -/
theorem test_shr_in_place :
    let t := ran 0x8016 (start .legacy8 [(0, 4), (1, 0xFF), (15, 1)])
    t.v 0#4 = 2 ∧ t.reg 15 = 0 := by decide
/-- A36. -/
theorem test_shl_width :
    let t := ran 0x800E (start .extended16 [(0, 0x80), (15, 1)])
    t.v 0#4 = 0x100 ∧ t.reg 15 = 0 := by decide
/-- A38. -/
theorem test_shl_in_extended64 :
    let t := ran 0x800E (start .extended64 [(0, 0x8000000000000001)])
    t.v 0#4 = 2 ∧ t.reg 31 = 1 := by decide

/-! ## Extended math -/

/-- X5. -/
theorem test_mul :
    let t := ran 0x8018 (start .extended64 [(0, 0xFFFFFFFF), (1, 0xFFFFFFFF), (31, 1)])
    t.v 0#4 = 0xFFFFFFFE00000001 ∧ t.reg 31 = 0 := by decide
/-- X13. -/
theorem test_div_on_the_flags_register :
    (ran 0x8F19 (start .extended16 [(15, 0x64), (1, 7)])).reg 15 = 2 := by decide
/-- X8. -/
theorem test_div_by_zero :
    let t := ran 0x8019 (start .extended16 [(0, 0x64), (15, 5)])
    t.v 0#4 = 0xFFFF ∧ t.reg 15 = 0 ∧ t.status = .ok := by decide
/-- X19. -/
theorem test_vadd_overlapping_pairs :
    let t := ran 0x5011 (start .extended16 [(0, 1), (1, 2), (2, 3)])
    t.reg 0 = 3 ∧ t.reg 1 = 5 := by decide
/-- X18. -/
theorem test_vadd_reaches_v16 :
    let t := ran 0x5F01 (start .extended64 [(15, 5), (16, 6), (0, 1), (1, 2)])
    t.reg 15 = 6 ∧ t.reg 16 = 8 := by decide
/-- X22. -/
theorem test_dot_drops_bit_32 :
    let t := ran 0x5022 (start .extended16 [(0, 0xFFFF), (1, 0xFFFF), (2, 0xFFFF), (3, 0xFFFF)])
    t.reg 0 = 2 ∧ t.reg 15 = 0xFFFC := by decide
/-- X27. -/
theorem test_ror : (ran 0x801A (start .extended16 [(0, 0x1234), (1, 0x11)])).v 0#4 = 0x91A := by decide
/-- X31. -/
theorem test_rol :
    (ran 0x801B (start .extended64 [(0, 0x8000000000000000), (1, 0x41)])).v 0#4 = 1 := by decide
/-- X33. -/
theorem test_popcnt : (ran 0x801C (start .extended16 [(1, 0xF0F1)])).v 0#4 = 9 := by decide

/-! ## Memory block -/

/-- B3. -/
theorem test_bcopy_overlap_below :
    (ran 0x5013 (((start .extended16 [(0, 0xFFFE), (1, 4)]).setIndexNat 0x302).writeBytes 0x300
      [0xAA, 0xBB, 0x11, 0x22, 0x33, 0x44])).readBytes 0x300 4 = [0x11, 0x22, 0x33, 0x44] := by decide
/-- B7. -/
theorem test_bcopy_destination_outside :
    (ran 0x5013 (startAt .extended16 [(0, 0xCFF), (1, 2)] 0x300 [])).status =
      .error (.memoryFault 0xFFF 2) := by decide
/-- B13. -/
theorem test_bsrch_needs_whole_units :
    (ran 0x5014 (startAt .extended16 [(0, 0x100), (1, 3)] 0x300 [0, 1, 0, 2, 0, 3])).reg 15 =
      0xFFFF := by decide
/-- B12. -/
theorem test_bsrch_finds :
    (ran 0x5014 (startAt .extended16 [(0, 2), (1, 3), (15, 7)] 0x300 [0, 1, 0, 2, 0, 3])).reg 15 = 1 := by
  decide

/-! ## Display -/

/-- G1. -/
theorem test_cls :
    let t := ran 0x00E0 ((start .legacy8 [(15, 1)]).setFb [0, 325, 2047])
    t.fb = [] ∧ t.redraw = true ∧ t.reg 15 = 1 := by decide
/-- G4. -/
theorem test_drw_wraps_columns :
    let t := ran 0xD011 (startAt .legacy8 [(0, 0x3C), (1, 0x1F)] 0x300 [0xFF])
    t.fb = [1984, 1985, 1986, 1987, 2044, 2045, 2046, 2047] ∧ t.reg 15 = 0 ∧ t.redraw = true := by
  decide
/-- G7. -/
theorem test_drw_collides :
    let t := ran 0xD011 ((startAt .legacy8 [] 0x300 [0xF0]).setFb [1])
    t.fb = [0, 2, 3] ∧ t.reg 15 = 1 := by decide
/-- G13. -/
theorem test_drw16 :
    (ran 0x9011 (startAt .extended16 [(0, 0x78)] 0x300 [0xFF, 0xFF])).fb =
      [0, 1, 2, 3, 4, 5, 6, 7, 120, 121, 122, 123, 124, 125, 126, 127] := by decide +kernel
/-- G14. -/
theorem test_drw16_outside :
    (ran 0x9011 (startAt .extended16 [] 0xFE1 [])).status = .error (.memoryFault 0xFE1 0x20) := by decide
/-- Rule R145: the last of 128 bytes holds the pixels of row 31 from column 24 on (128 entries a row). -/
theorem test_drw32_last_byte :
    (ran 0x9012 (((start .extended64 []).setIndexNat 0x300).writeByte 0x37F 0x81)).fb =
      [3992, 3999] := by decide +kernel
/-- G19. -/
theorem test_hline_clamps :
    (ran 0x9123 (start .extended16 [(0, 0xFF00), (1, 0x78), (2, 3)])).fb =
      [504, 505, 506, 507, 508, 509, 510, 511] := by decide
/-- G24. -/
theorem test_vline_clamps :
    (ran 0x9124 (start .extended16 [(0, 0xA000), (1, 5), (2, 0x3E)])).fb = [7941] := by decide

/-! ## Input and timers -/

/-- K5. -/
theorem test_skp : pcOf (ran 0xE09E ((start .legacy8 [(0, 0x15)]).setKey 5 true)) = 0x204 := by decide
/-- K4. -/
theorem test_sknp : pcOf (ran 0xE0A1 ((start .legacy8 [(0, 5)]).setKey 5 true)) = 0x202 := by decide
/-- K7. -/
theorem test_key_wait_rewinds :
    let t := ran 0xF30A (start .legacy8 [(3, 0x77)])
    pcOf t = 0x200 ∧ t.v 3#4 = 0x77 := by decide
/-- K8. -/
theorem test_key_wait_takes_the_least :
    (ran 0xF30A (((start .legacy8 [(3, 0x77)]).setKey 9 true).setKey 7 true)).v 3#4 = 7 := by decide
/-- M2. -/
theorem test_read_delay_timer :
    (ran 0xF307 ((start .extended16 [(3, 0xABCD)]).setDt 255)).v 3#4 = 0xFF := by decide
/-- M4. -/
theorem test_write_delay_timer : (ran 0xF315 (start .extended16 [(3, 0x123)])).dt = 35#8 := by decide
/-- M7. -/
theorem test_write_sound_timer :
    (ran 0xF318 (start .extended64 [(3, 0xFFFFFFFFFFFFFFFF)])).st = 255#8 := by decide

/-! ## Index, font, BCD, bulk transfer -/

/-- I1. -/
theorem test_ld_i : (ran 0xA234 (start .legacy8 [])).index = 0x234#16 := by decide
/-- I4. -/
theorem test_add_i_wraps :
    (ran 0xF11E (startAt .extended16 [(1, 0xFFFF)] 5 [])).index = 4#16 := by decide
/-- I7. -/
theorem test_ld_f : (ran 0xF029 (start .legacy8 [(0, 0xA)])).index = 0x32#16 := by decide
/-- I11. -/
theorem test_ld_f_above_15 : (ran 0xF029 (start .extended16 [(0, 0x110)])).index = 0x4B#16 := by decide
/-- I15. -/
theorem test_bcd :
    (ran 0xF033 (startAt .extended16 [(0, 0x4D2)] 0x300 [9, 9, 9, 9, 9])).readBytes 0x300 5 =
      [0, 1, 2, 3, 4] := by decide
/-- I17. -/
theorem test_bcd_in_extended64 :
    (ran 0xF033 (startAt .extended64 [(0, 0xFFFFFFFFFFFFFFFF)] 0x300 [])).readBytes 0x300 20 =
      [1, 8, 4, 4, 6, 7, 4, 4, 0, 7, 3, 7, 0, 9, 5, 5, 1, 6, 1, 5] := by decide
/-- I22. -/
theorem test_bulk_store :
    let t := ran 0xF155 (startAt .extended16 [(0, 0x1234), (1, 0xABCD)] 0x300 [])
    t.readBytes 0x300 4 = [0x12, 0x34, 0xAB, 0xCD] ∧ t.index = 0x304#16 := by decide
/-- I21. -/
theorem test_bulk_store_keeps_i_in_legacy8 :
    let t := ran 0xF155 (startAt .legacy8 [(0, 0x12), (1, 0x34)] 0x300 [])
    t.readBytes 0x300 2 = [0x12, 0x34] ∧ t.index = 0x300#16 := by decide
/-- I30. -/
theorem test_bulk_load :
    let t := ran 0xF065 (startAt .extended16 [] 0x300 [2, 3, 4])
    t.v 0#4 = 0x203 ∧ t.index = 0x302#16 := by decide
/-- I32. -/
theorem test_bulk_load_outside :
    let t := ran 0xF265 (startAt .legacy8 [(0, 9), (1, 9), (2, 9)] 0xFFE [])
    t.v 0#4 = 9 ∧ t.status = .error (.memoryFault 0xFFE 3) := by decide

/-! ## Random: a free value is not tested, only what the rules fix -/

/-- R171: one draw. -/
theorem test_rnd_draws_once : (ran 0xC100 (start .legacy8 [(1, 0x55)])).draws = 1 := by decide
/-- R172: one draw, and no other register. -/
theorem test_rndw_writes_one_register :
    let t := ran 0xF201 (start .extended16 [(1, 0x55)])
    t.draws = 1 ∧ t.v 1#4 = 0x55 := by decide
/-- R8. -/
theorem test_rndb_of_zero :
    let t := ran 0x5015 (start .extended16 [(0, 0x99)])
    t.v 0#4 = 0 ∧ t.draws = 0 := by decide

/-! ## Call with parameters -/

/-- P3. -/
theorem test_callp :
    let t := ran 0x0300 ((start .extended16 [(1, 1), (2, 2), (3, 3)]).setStack (Vector.replicate 16 0) 12)
    pcOf t = 0x300 ∧ t.sp = 16 ∧ t.slot 12 = 0x202#64 ∧ t.slot 13 = 1#64 ∧ t.slot 15 = 3#64 := by decide
/-- P4. -/
theorem test_callp_with_three_free_slots :
    let t := ran 0x0300 ((start .extended16 []).setStack (Vector.replicate 16 0) 13)
    pcOf t = 0x202 ∧ t.sp = 13 ∧ t.status = .error (.stackOverflow 0x200#16) := by decide
/-- P7. -/
theorem test_retv_masks :
    let t := ran 0x00EF (((((start .extended16 [(1, 0x99)]).push 0x202).push 0x1FFFF).push 0x22).push 0x33)
    t.reg 0 = 0x99 ∧ t.reg 1 = 0xFFFF ∧ t.reg 2 = 0x22 ∧ t.reg 3 = 0x33 ∧ pcOf t = 0x202 ∧ t.sp = 0 := by
  decide
/-- P5. -/
theorem test_retv_with_three_slots :
    (ran 0x00EF ((((start .extended16 []).push 0x202).push 0x11).push 0x22)).status =
      .error (.stackUnderflow 0x200#16) := by decide

/-! ## Steps and operations -/

/-- X6. -/
theorem test_unknown_opcode_in_legacy8 :
    let t := stateOr State.reset (step (startAt .legacy8 [(0, 2)] 0x200 [0x80, 0x18]))
    t.status = .error (.unknownOpcode 0x8018#16 0x200#16) ∧ pcOf t = 0x202 ∧ t.v 0#4 = 2 := by decide
/-- T21. -/
theorem test_fetch_fault :
    let t := stateOr State.reset (step ((start .legacy8 []).setPcNat 0xFFF))
    pcOf t = 0xFFF ∧ t.status = .error (.memoryFault 0xFFF 2) := by decide
/-- Rule R198: the tenth frame. -/
theorem test_tenth_frame :
    let t := (((start .legacy8 []).setEffect .colorCycle).setCycle 9 15).processGraphicsEffect
    t.effectFrames = 0 ∧ t.paletteIndex = 0 := by decide

/-! ## Witnesses: states and operands that meet the hypotheses of the statements -/

theorem tableOk_tableR80 : tableOk tableR80 = true := by decide +kernel

theorem witness_DecodeOfEncodeIsTheInstruction :
    tableOk tableR80 = true ∧
    (Instr.callp 0x100#12).wellFormed tableR80 .extended16 = true ∧
    (Instr.drw32 15#4 15#4).wellFormed tableR80 .extended64 = true ∧
    (Instr.jp 0xFFF#12).wellFormed tableR80 .legacy8 = true :=
  ⟨tableOk_tableR80, by decide, by decide, by decide⟩

theorem witness_EncodeOfDecodeIsTheWord :
    tableOk tableR80 = true ∧
    decodeWord tableR80 .legacy8 0x8AB6#16 = some (.shr 0xA#4) ∧
    decodeWord tableR80 .extended16 0x0100#16 = some (.callp 0x100#12) :=
  ⟨tableOk_tableR80, by decide, by decide⟩

/-- The smallest word of `CALLP` selects its row, and the table is not that of R80. -/
theorem witness_DecoderReadsTheOneRowOfTheTable :
    tableOk [⟨0xF000#16, 0x0000#16, .ext, 0x100, .callp⟩] = true ∧
    0x0100#16 &&& 0xF000#16 = 0x0000#16 ∧ Gate.ext.admits .extended16 = true ∧
    0x100 ≤ (Opcode.nnn 0x0100#16).toNat ∧
    decodeWord [⟨0xF000#16, 0x0000#16, .ext, 0x100, .callp⟩] .extended16 0x0100#16 =
      some (.callp 0x100#12) := by decide

/-- The last two bytes of memory. -/
def lastWord : State := (startAt .legacy8 [] 0xFFE [0x63, 0x07]).setPcNat 0xFFE

theorem witness_StepRunsTheDecodedInstruction :
    lastWord.pc.toNat + 2 ≤ lastWord.mode.memSize ∧
    decodeWord lastWord.cfg.table lastWord.mode (lastWord.readByte lastWord.pc.toNat ++
      lastWord.readByte (lastWord.pc.toNat + 1)) = some (.ldImm 3#4 7#8) := by decide

theorem witness_UnknownOpcodeIsReportedAndSkipped :
    State.reset.pc.toNat + 2 ≤ State.reset.mode.memSize ∧
    decodeWord State.reset.cfg.table State.reset.mode (State.reset.readByte State.reset.pc.toNat ++
      State.reset.readByte (State.reset.pc.toNat + 1)) = none := by decide

theorem witness_FetchOutsideMemoryRepeatsItsFault :
    ((start .legacy8 []).setPcNat 0xFFF).mode.memSize <
      ((start .legacy8 []).setPcNat 0xFFF).pc.toNat + 2 := by decide

theorem witness_StepReportsAtMostOneError : ∃ t, step lastWord = .next t :=
  next_of_isNext (by decide)

theorem witness_ErrorStepIsANoOp :
    ∃ t, step State.reset = .next t ∧ t.status = .error (.unknownOpcode 0#16 0x200#16) := by
  obtain ⟨t, h⟩ := next_of_isNext (r := step State.reset) (by decide)
  refine ⟨t, h, ?_⟩
  have e : t = stateOr State.reset (step State.reset) := by rw [h]; rfl
  rw [e]
  decide

theorem witness_FailedSpanCheckOnlyReports :
    (0 < (2#4).toNat ∧ (startAt .legacy8 [] 0xFFF []).mode.memSize <
      (startAt .legacy8 [] 0xFFF []).index.toNat + (2#4).toNat) ∧
    (startAt .extended16 [] 0xFE1 []).mode.memSize <
      (startAt .extended16 [] 0xFE1 []).index.toNat + 32 ∧
    (startAt .extended64 [] 0xFF81 []).mode.memSize <
      (startAt .extended64 [] 0xFF81 []).index.toNat + 128 ∧
    (startAt .legacy8 [] 0xFFE []).mode.memSize < (startAt .legacy8 [] 0xFFE []).index.toNat +
      (startAt .legacy8 [] 0xFFE []).mode.digits ∧
    (startAt .extended16 [] 0xFFF []).mode.memSize < (startAt .extended16 [] 0xFFF []).index.toNat +
      ((0#4).toNat + 1) * (startAt .extended16 [] 0xFFF []).mode.regBytes ∧
    (0 < (startAt .extended16 [(1, 3)] 0xFFE []).v 1#4 ∧
      (startAt .extended16 [(1, 3)] 0xFFE []).mode.memSize <
        (startAt .extended16 [(1, 3)] 0xFFE []).index.toNat +
          (startAt .extended16 [(1, 3)] 0xFFE []).v 1#4) := by decide

/-- A copy whose source ends inside memory and whose destination does not. -/
def copyOut : State := startAt .extended16 [(0, 0xCFF), (1, 2)] 0x300 []
/-- A search window of two units at the last three bytes of memory. -/
def searchOut : State := startAt .extended16 [(1, 2)] 0xFFD []

theorem witness_FailedSpanCheckOnlyReports_block :
    (0 < copyOut.v 1#4 ∧ copyOut.index.toNat + copyOut.v 1#4 ≤ copyOut.mode.memSize ∧
      copyOut.mode.memSize < (copyOut.index.toNat + copyOut.v 0#4) % 65536 + copyOut.v 1#4) ∧
    (0 < min (searchOut.v 1#4) searchOut.cfg.searchWindowMax ∧
      searchOut.mode.memSize < searchOut.index.toNat +
        min (searchOut.v 1#4) searchOut.cfg.searchWindowMax * searchOut.mode.regBytes) := by decide

theorem witness_NoInstructionTouchesHostState :
    ∃ t, exec (.hline 1#4 2#4) (start .extended16 [(0, 0xFFFF)]) = .next t := ⟨_, rfl⟩

theorem witness_FramebufferMemoryIndexStackTimersAndDrawsHaveTheirWriters :
    ∃ t, exec (.addReg 1#4 2#4) (start .legacy8 [(1, 1)]) = .next t ∧
      (Instr.addReg 1#4 2#4).isDisplay = false ∧ (Instr.addReg 1#4 2#4).storesToMemory = false ∧
      (Instr.addReg 1#4 2#4).writesIndex = false ∧ (Instr.addReg 1#4 2#4).usesStack = false ∧
      (Instr.addReg 1#4 2#4).draws = false := ⟨_, rfl, rfl, rfl, rfl, rfl, rfl⟩

theorem witness_UpperRegistersAreWrittenAsPairPartnerOrFlagOnly :
    ∃ t, exec (.vadd 15#4 0#4) (start .extended64 [(1, 2)]) = .next t ∧
      t.regs[16] ≠ (start .extended64 [(1, 2)]).regs[16] :=
  ⟨after (.vadd 15#4 0#4) (start .extended64 [(1, 2)]), rfl, by decide⟩

/-- Register 16 below the pair of register 14, and register 31, which the instruction writes. -/
theorem witness_UpperRegistersAreReadAsPairPartnerOnly :
    (∃ t, exec (.vadd 14#4 0#4) (start .extended64 [(1, 2)]) = .next t) ∧
    (∃ t, exec (.dot 15#4 0#4) (start .extended64 [(1, 2)]) = .next t) ∧
    ¬ (Mode.extended64 = .extended64 ∧ (16 : Fin Const.physRegs).val = 16 ∧
      ∃ x y, (x = 15#4 ∨ y = 15#4) ∧ (Instr.vadd 14#4 0#4 = .vadd x y ∨ Instr.vadd 14#4 0#4 = .dot x y)) ∧
    ¬ (Mode.extended64 = .extended64 ∧ (31 : Fin Const.physRegs).val = 16 ∧
      ∃ x y, (x = 15#4 ∨ y = 15#4) ∧ (Instr.dot 15#4 0#4 = .vadd x y ∨ Instr.dot 15#4 0#4 = .dot x y)) :=
  ⟨⟨_, rfl⟩, ⟨_, rfl⟩, by simp, by simp⟩

/-- Reading register 16 is what the exception is for: `DOT` with second operand 15. -/
theorem test_dot_reads_register_16 :
    (after (.dot 0#4 15#4) (start .extended64 [(1, 2), (16, 3)])).v 0#4 = 6 ∧
    (after (.dot 0#4 15#4) ((start .extended64 [(1, 2), (16, 3)]).poke 16 4#64)).v 0#4 = 8 := by decide

/-- A state in `Extended16` with data everywhere, which meets the invariant. -/
def busy : State :=
  (((startAt .extended16 [(0, 0xFFFF), (15, 1)] 0xFFE [0x12, 0x34]).setFb [0, 8191]).push 0x202).setCycle 9 15

theorem witness_StepKeepsInvariant : busy.Inv ∧ ∃ t, step busy = .next t :=
  ⟨⟨by decide +kernel, by decide, by intro i; revert i; decide, by decide, by decide, by decide, by decide,
    by decide⟩, next_of_isNext (by decide)⟩

theorem witness_EveryInterleavingKeepsInvariant :
    busy.Inv ∧ ∃ t, performAll [.processGraphicsEffect, .setMode .extended64, .tickTimers] busy = .next t :=
  ⟨witness_StepKeepsInvariant.1, next_of_isNext (by decide)⟩

theorem witness_InvariantHoldsAtReset : Config.defaults.valid = true := by decide +kernel

theorem witness_CallPushesReturnAddressOrReports :
    ((start .legacy8 []).setStack (Vector.replicate 16 0) 15).sp < 16 ∧
    ((start .legacy8 []).setStack (Vector.replicate 16 0) 16).sp = 16 := by decide

theorem witness_ReturnPopsPcOrReports :
    0 < ((start .legacy8 []).push 0x202).sp ∧ (start .legacy8 []).sp = 0 := by decide

theorem witness_NestedCallsThenReturnsRestorePc :
    (start .legacy8 []).sp + (List.replicate 16 0x300#12).length ≤ 16 := by decide

theorem witness_result_and_flag :
    fieldReg 0#4 ≠ flagReg .legacy8 ∧ fieldReg 15#4 ≠ flagReg .extended64 ∧
    ¬ fieldReg 15#4 ≠ flagReg .extended16 := by decide

theorem witness_DivideWritesQuotientThenRemainder :
    0 < (start .extended16 [(1, 1)]).v 1#4 ∧ (start .extended16 []).v 1#4 = 0 := by decide

/-- A copy of the two last bytes of memory. -/
def copyEnd : State := startAt .extended16 [(0, 0xCFE), (1, 2)] 0x300 [0x55, 0x66]

theorem witness_BlockCopyBehavesLikeMemmove :
    (copyEnd.v 1#4 ≠ 0 ∧ copyEnd.index.toNat + copyEnd.v 1#4 ≤ copyEnd.mode.memSize ∧
      (copyEnd.index.toNat + copyEnd.v 0#4) % 65536 + copyEnd.v 1#4 ≤ copyEnd.mode.memSize) ∧
    (start .extended16 []).v 1#4 = 0 := by decide

/-- A search window of two units that ends at the end of memory; the second unit matches. -/
def searchEnd : State := startAt .extended16 [(0, 2), (1, 2)] 0xFFC [0, 1, 0, 2]

theorem witness_BlockSearchReportsFirstMatch :
    2 = min (searchEnd.v 1#4) searchEnd.cfg.searchWindowMax ∧
    searchEnd.index.toNat + 2 * searchEnd.mode.regBytes ≤ searchEnd.mode.memSize ∧
    searchEnd.memRead (searchEnd.index.toNat + 1 * searchEnd.mode.regBytes) searchEnd.mode.regBytes =
      searchEnd.v 0#4 ∧
    searchEnd.memRead (searchEnd.index.toNat + 0 * searchEnd.mode.regBytes) searchEnd.mode.regBytes ≠
      searchEnd.v 0#4 ∧
    searchEnd.cfg.valid = true ∧ searchEnd.mode ≠ .legacy8 ∧
    0 = min ((start .extended16 []).v 1#4) (start .extended16 []).cfg.searchWindowMax := by decide

theorem witness_ClearScreenClearsEveryPixel :
    2047 < State.reset.dw * State.reset.dh ∧ State.reset.dw * State.reset.dh ≤ 2048 := by decide

theorem witness_DrawingTurnsPixelsOver :
    (0#4).toNat = 0 ∧
    (startAt .legacy8 [] 0xFF1 []).index.toNat + (15#4).toNat ≤ (startAt .legacy8 [] 0xFF1 []).mode.memSize ∧
    (startAt .extended16 [] 0xFE0 []).index.toNat + 32 ≤ (startAt .extended16 [] 0xFE0 []).mode.memSize ∧
    (startAt .extended64 [] 0xFF80 []).index.toNat + 128 ≤
      (startAt .extended64 [] 0xFF80 []).mode.memSize := by decide

/-- Both sides of a collision: the entry 1 is set, and one call turns it over. -/
theorem witness_DrawingTurnsPixelsOver_collision :
    ((start .legacy8 []).setFb [1]).collides [⟨1, 0, true⟩] ∧
    ¬ (start .legacy8 []).collides [] := by
  refine ⟨⟨1, by decide, .inl (by decide)⟩, ?_⟩
  rintro ⟨j, h, _⟩
  exact absurd h (by simp [State.hits])

theorem witness_PixelCallsAreThoseOfTheRules : 0 < State.reset.dw ∧ 0 < State.reset.dh := by decide

/-- The second position register is the flags register, and it holds 0 before and after the first drawing. -/
theorem witness_DrawingTwiceRestoresThePixels :
    ∃ t u, exec (.hline 1#4 15#4) (start .extended16 [(0, 0x8001)]) = .next t ∧
      t.v 1#4 = (start .extended16 [(0, 0x8001)]).v 1#4 ∧
      t.v 15#4 = (start .extended16 [(0, 0x8001)]).v 15#4 ∧
      exec (.hline 1#4 15#4) t = .next u :=
  ⟨after (.hline 1#4 15#4) (start .extended16 [(0, 0x8001)]), _, rfl, by decide, by decide, rfl⟩

theorem witness_KeySkipsTestTheKey :
    (5 : Fin Const.nkeys).val = (start .legacy8 [(0, 0x15)]).v 0#4 % 16 := by decide

theorem witness_KeyWaitStoresLeastKeyOrRewinds :
    (((start .legacy8 []).setKey 15 true).keyDown 15 = true ∧
      ∀ j, j < 15 → ((start .legacy8 []).setKey 15 true).keyDown j = false) ∧
    (∀ k, (start .legacy8 []).keyDown k = false) := by decide

theorem witness_IndexInstructionsWriteOnlyTheIndex :
    (start .legacy8 [(0, 15)]).v 0#4 ≤ 15 ∧
    (15 < (start .legacy8 [(0, 16)]).v 0#4 ∧ (start .legacy8 [(0, 16)]).cfg.fontPolicy = .fallbackF) := by
  decide

theorem witness_BcdStoreWritesTheDigits :
    (startAt .legacy8 [(0, 0x7B)] 0xFFD []).index.toNat + (startAt .legacy8 [(0, 0x7B)] 0xFFD []).mode.digits ≤
      (startAt .legacy8 [(0, 0x7B)] 0xFFD []).mode.memSize := by decide

/-- Two registers whose images are the last two bytes of memory. -/
def bulkEnd : State := startAt .legacy8 [(0, 0x12), (1, 0x34)] 0xFFE []

theorem witness_BulkStoreWritesBigEndianImages :
    2 = ((1#4).toNat + 1) * bulkEnd.mode.regBytes ∧ bulkEnd.index.toNat + 2 ≤ bulkEnd.mode.memSize := by
  decide

theorem witness_BulkLoadReadsBigEndianImages :
    2 = ((1#4).toNat + 1) * (after (.ldMemVx 1#4) bulkEnd).mode.regBytes ∧
    (after (.ldMemVx 1#4) bulkEnd).index.toNat + 2 ≤ (after (.ldMemVx 1#4) bulkEnd).mode.memSize := by
  decide

theorem witness_BulkLoadRestoresWhatBulkStoreWrote :
    ∃ t u w, bulkEnd.index.toNat + ((1#4).toNat + 1) * bulkEnd.mode.regBytes ≤ bulkEnd.mode.memSize ∧
      exec (.ldMemVx 1#4) bulkEnd = .next t ∧ u.mode = t.mode ∧ u.cfg = t.cfg ∧ u.mem = t.mem ∧
      u.index = bulkEnd.index ∧ exec (.ldVxMem 1#4) u = .next w :=
  ⟨after (.ldMemVx 1#4) bulkEnd,
    ((after (.ldMemVx 1#4) bulkEnd).setReg 0 0).setIndex bulkEnd.index, _, by decide, rfl, rfl, rfl, rfl,
    rfl, rfl⟩

theorem witness_RandomInstructionsStayInRange :
    0 < (start .extended16 [(1, 1)]).v 1#4 ∧ (start .extended16 []).v 1#4 = 0 := by decide

theorem witness_CallWithParametersPushesAFrameOrReports :
    ((start .extended16 []).setStack (Vector.replicate 16 0) 12).sp ≤ 12 ∧
    12 < ((start .extended16 []).setStack (Vector.replicate 16 0) 13).sp := by decide

theorem witness_ReturnWithValueRestoresTheFrameOrReports :
    4 ≤ ((start .extended16 []).setStack (Vector.replicate 16 0) 4).sp ∧
    ((start .extended16 []).setStack (Vector.replicate 16 0) 3).sp < 4 := by decide

/-- The caller, with room for exactly one frame. -/
def caller : State := (start .extended16 [(1, 1), (2, 2), (3, 3)]).setStack (Vector.replicate 16 0) 12

theorem witness_CallThenReturnWithValueKeepsTheConvention :
    ∃ t u w, caller.sp ≤ 12 ∧ exec (.callp 0x300#12) caller = .next t ∧ u.stack = t.stack ∧ u.sp = t.sp ∧
      u.mode = caller.mode ∧ exec .retv u = .next w :=
  ⟨after (.callp 0x300#12) caller, (after (.callp 0x300#12) caller).setReg 1 0x99, _, by decide, rfl, rfl,
    rfl, by decide, rfl⟩

theorem witness_GraphicsOperationsLeaveTheFramebuffer :
    (start .legacy8 []).effect = .none ∧
    ((start .legacy8 []).setEffect .colorCycle).effect = .colorCycle ∧
    ((start .legacy8 []).setCycle 8 0).effectFrames ≠ 9 ∧
    ((start .legacy8 []).setCycle 9 0).effectFrames = 9 := by decide

theorem witness_LoadProgramCopiesTheImageOrRejects :
    (List.replicate 3584 (0 : Byte)).length ≤ State.reset.mode.memSize - 0x200 ∧
    State.reset.mode.memSize - 0x200 < (List.replicate 3585 (0 : Byte)).length := by
  rw [List.length_replicate, List.length_replicate]
  decide

theorem witness_SetModeMasksRegistersAndClearsTheDisplay :
    Mode.legacy8 = State.reset.mode ∧ Mode.extended64 ≠ State.reset.mode := by decide

end Sys2Proof.Tests
end

section
/-!
PROOF. The step whose opcode is `Unknown` (spec/30_encoding.md, R83).
-/

namespace Sys2Proof.Machine

variable {s t : State}

theorem KeepsAllBut.mono {ps qs : List Part} (h : KeepsAllBut ps s t) (sub : ps ⊆ qs) :
    KeepsAllBut qs s t :=
  fun p hp => h p fun hps => hp (sub hps)

theorem State.advance_only (s : State) : KeepsAllBut [.pc, .report] s s.advance := by
  intro p hp
  cases p <;> simp [Part.same, State.readByte] at hp ⊢

theorem State.canFetch_iff : s.canFetch = true ↔ s.pc.toNat + 2 ≤ s.mode.memSize := by
  simp [State.canFetch]

theorem step_of_unknown (mem : s.canFetch = true)
    (unknown : decodeWord s.cfg.table s.mode (s.opcodeAt s.pc.toNat) = none) :
    step s = .next (s.advance.raise (.unknownOpcode (s.opcodeAt s.pc.toNat) s.pc)) := by
  simp [step, fetch, mem, unknown]

/-- Settles O6: the step ends in the report raised on the advanced state, and the frames of the two compose. -/
theorem unknownOpcodeIsReportedAndSkipped : Obligations.UnknownOpcodeIsReportedAndSkipped := by
  intro s mem unknown
  obtain ⟨status, log, raised⟩ :=
    s.advance.raise_reports (.unknownOpcode (s.opcodeAt s.pc.toNat) s.pc)
  have frame := s.advance_only.trans (raised.mono (List.subset_cons_self _ _))
  exact ⟨_, step_of_unknown (State.canFetch_iff.mpr mem) unknown, rfl, status, log, frame⟩

end Sys2Proof.Machine
end

section
/-!
PROOF. Decoding by families: when every row of a decode table fixes the family bits, only the rows of an
opcode's own family count (spec/30_encoding.md, R80).
-/

namespace Sys2Proof

variable {t : List Row} {r : Row} {m : Mode} {w : Opcode}

/-- A row that fixes the family bits selects opcodes of its own family only. -/
theorem Row.fam_of_selects (full : r.mask.fam = 15#4) (sel : r.selects m w = true) :
    r.value.fam = w.fam := by
  obtain ⟨fixed, -, -⟩ := (r.selects_iff m w).1 sel
  rw [← fixed, Opcode.fam_and, full, allOnes4]

theorem decodeWord_filter_family (full : ∀ r ∈ t, r.mask.fam = 15#4) :
    decodeWord (t.filter fun r => r.value.fam = w.fam) m w = decodeWord t m w := by
  have same : ∀ r ∈ t,
      decide (decide (r.value.fam = w.fam) = true ∧ r.selects m w = true) = r.selects m w := by
    intro r hr
    rw [Bool.eq_iff_iff, decide_eq_true_iff]
    exact ⟨And.right, fun sel => ⟨decide_eq_true (Row.fam_of_selects (full r hr) sel), sel⟩⟩
  rw [decodeWord, decodeWord, List.find?_filter, List.find?_congr same]

theorem decodeWord_singleton (sel : r.selects m w = true) :
    decodeWord [r] m w = some (r.op.instr w) := by
  simp [decodeWord, sel]

/-- A row that fixes the family bits alone, in every mode, selects every word of format A of its family. -/
theorem Row.familyRow_selects (fam : BitVec 4) (o : Op) (nnn : BitVec 12) :
    (Row.mk 0xF000#16 (wordA fam 0#12) .all 0 o).selects m (wordA fam nnn) = true := by
  refine (Row.selects_iff _ _ _).2 ⟨?_, rfl, Nat.zero_le _⟩
  show wordA fam nnn &&& wordA 15#4 0#12 = wordA fam 0#12
  rw [wordA_and, allOnes4, BitVec.and_zero]

theorem tableR80_fixes_family : ∀ r ∈ tableR80, r.mask.fam = 15#4 := by decide

/-- Where a family of R80 is one row that fixes no bit below the family, all its words are that row's. -/
theorem decodeWord_tableR80_of_family {fam : BitVec 4} {o : Op} (nnn : BitVec 12)
    (only : (tableR80.filter fun r => r.value.fam = fam) = [⟨0xF000#16, wordA fam 0#12, .all, 0, o⟩]) :
    decodeWord tableR80 m (wordA fam nnn) = some (o.instr (wordA fam nnn)) := by
  rw [← decodeWord_filter_family tableR80_fixes_family, wordA_fam, only]
  exact decodeWord_singleton (Row.familyRow_selects fam o nnn)

theorem decodeWord_tableR80_call (m : Mode) (nnn : BitVec 12) :
    decodeWord tableR80 m (wordA 2#4 nnn) = some (.call nnn) := by
  rw [decodeWord_tableR80_of_family (o := .call) nnn (by decide), Op.instr, wordA_nnn]

end Sys2Proof
end

section
/-!
PROOF. The meaning of `CALL` (spec/40_control_flow.md, R101).
-/

namespace Sys2Proof.Machine

variable {s : State}

theorem State.hasFree_iff {n : Nat} : s.hasFree n = true ↔ s.sp + n ≤ 16 := by
  simp [State.hasFree, Const.stackDepth]

@[simp] theorem addr12_toNat (nnn : BitVec 12) : (addr12 nnn).toNat = nnn.toNat :=
  BitVec.toNat_setWidth_of_le (by decide)

@[simp] theorem State.setPc_slot (a : Addr) (k : Nat) : (s.setPc a).slot k = s.slot k := rfl

theorem State.push_only (s : State) (v : Cell64) : KeepsAllBut [.stack] s (s.push v) := by
  intro p hp
  cases p <;> simp [Part.same, State.readByte] at hp ⊢

theorem State.setPc_only (s : State) (a : Addr) : KeepsAllBut [.pc] s (s.setPc a) := by
  intro p hp
  cases p <;> simp [Part.same, State.readByte] at hp ⊢

theorem exec_call_of_free (nnn : BitVec 12) (free : s.hasFree 1 = true) :
    exec (.call nnn) s = .next ((s.push (s.pc.setWidth 64)).setPc (addr12 nnn)) := by
  simp [exec, execCall, free]

theorem exec_call_of_full (nnn : BitVec 12) (full : s.hasFree 1 = false) :
    exec (.call nnn) s = .next (s.raise (.stackOverflow (s.pc - 2))) := by
  simp [exec, execCall, full, State.instrAddr, Const.opcodeBytes]

theorem call_pushes_and_jumps (nnn : BitVec 12) (free : s.sp < 16) :
    Completes (.call nnn) s fun t =>
      t.slot s.sp = s.pc.setWidth 64 ∧ t.sp = s.sp + 1 ∧ (∀ k, k ≠ s.sp → t.slot k = s.slot k) ∧
      t.pc.toNat = nnn.toNat ∧ KeepsAllBut [.pc, .stack] s t := by
  have pushed : KeepsAllBut [.pc, .stack] s (s.push (s.pc.setWidth 64)) :=
    (s.push_only _).mono (by simp)
  have frame := pushed.trans ((State.setPc_only _ (addr12 nnn)).mono (by simp))
  exact ⟨_, exec_call_of_free nnn (State.hasFree_iff.2 free), s.slot_push_same _ free, rfl,
    fun _ other => s.slot_push_ne _ other, addr12_toNat nnn, frame⟩

theorem call_reports_full_stack (nnn : BitVec 12) (full : s.sp = 16) :
    Completes (.call nnn) s (Reports (.stackOverflow (s.pc - 2)) s) :=
  have noFree : s.hasFree 1 = false := by simp [State.hasFree, Const.stackDepth, full]
  ⟨_, exec_call_of_full nnn noFree, s.raise_reports _⟩

/-- Settles O20: `CALL` is the one row of its family, and the two clauses are the two branches of R101. -/
theorem callPushesReturnAddressOrReports : Obligations.CallPushesReturnAddressOrReports :=
  fun _ nnn =>
    ⟨fun m => decodeWord_tableR80_call m nnn, call_pushes_and_jumps nnn, call_reports_full_stack nnn⟩

end Sys2Proof.Machine
end

section
/-!
PROOF. Decoding words of formats RI and RR over the decode table of R80 (spec/30_encoding.md): the row of a
whole family, and the first row of a family that dispatches on its last nibble.
-/

namespace Sys2Proof

variable {t : List Row} {r : Row} {m : Mode} {w : Opcode}

/-- A word of format RI is one of format A whose operand is the register and the byte. -/
theorem wordRI_eq_wordA (fam : BitVec 4) (x : RegField) (kk : BitVec 8) :
    wordRI fam x kk = wordA fam (x ++ kk) := BitVec.append_assoc

theorem decodeWord_of_head (head : t.head? = some r) (sel : r.selects m w) :
    decodeWord t m w = some (r.op.instr w) := by
  obtain ⟨rest, rfl⟩ := List.head?_eq_some_iff.1 head
  simp [decodeWord, sel]

theorem decodeWord_tableR80_of_first
    (first : (tableR80.filter fun q => q.value.fam = w.fam).head? = some r)
    (sel : r.selects m w) : decodeWord tableR80 m w = some (r.op.instr w) := by
  rw [← decodeWord_filter_family tableR80_fixes_family, decodeWord_of_head first sel]

/-- A row that fixes the family and the last nibble, in every mode, selects every such word of format RR. -/
theorem Row.nibbleRow_selects (fam n : BitVec 4) (o : Op) (x y : RegField) :
    (Row.mk 0xF00F#16 (wordRR fam 0#4 0#4 n) .all 0 o).selects m (wordRR fam x y n) = true := by
  refine (Row.selects_iff _ _ _).2 ⟨?_, rfl, Nat.zero_le _⟩
  show wordRR fam x y n &&& wordRR 15#4 0#4 0#4 15#4 = wordRR fam 0#4 0#4 n
  rw [wordRR_and, allOnes4, allOnes4, BitVec.and_zero, BitVec.and_zero]

theorem decodeWord_tableR80_addImm (m : Mode) (x : RegField) (kk : BitVec 8) :
    decodeWord tableR80 m (wordRI 7#4 x kk) = some (.addImm x kk) := by
  rw [wordRI_eq_wordA, decodeWord_tableR80_of_family (o := .addImm) _ (by decide), ← wordRI_eq_wordA,
    Op.instr, wordRI_x, wordRI_kk]

theorem decodeWord_tableR80_ldReg (m : Mode) (x y : RegField) :
    decodeWord tableR80 m (wordRR 8#4 x y 0#4) = some (.ldReg x y) := by
  have first : (tableR80.filter fun q => q.value.fam = (wordRR 8#4 x y 0#4).fam).head? =
      some ⟨0xF00F#16, wordRR 8#4 0#4 0#4 0#4, .all, 0, .ldReg⟩ := by
    rw [wordRR_fam]
    decide
  rw [decodeWord_tableR80_of_first first (Row.nibbleRow_selects _ _ _ x y), Op.instr, wordRR_x, wordRR_y]

end Sys2Proof
end

section
/-!
PROOF. `ADD Vx, kk` and `LD Vx, Vy` (spec/41_arithmetic.md, R111, R112): instructions whose one write is a
field's register.
-/

namespace Sys2Proof.Machine

variable {s : State} {i : Instr} {x : RegField}

/-- An instruction that only writes `V[x]` stores the value modulo `2^W` and writes no flag (R23). -/
theorem completes_of_exec_setV {v : Nat} (run : exec i s = .next (s.setV x v)) :
    Completes i s fun t => t.v x = v % 2 ^ s.mode.regBits ∧ OnlyRegs [fieldReg x] s t :=
  ⟨_, run, s.v_setV_same x v, s.setV_only x v⟩

/-- A value that fits the mode's width is stored as it is. -/
theorem completes_of_exec_setV_of_lt {v : Nat} (run : exec i s = .next (s.setV x v))
    (fits : v < 2 ^ s.mode.regBits) :
    Completes i s fun t => t.v x = v ∧ OnlyRegs [fieldReg x] s t := by
  simpa only [Nat.mod_eq_of_lt fits] using completes_of_exec_setV run

theorem exec_addImm (x : RegField) (kk : BitVec 8) :
    exec (.addImm x kk) s = .next (s.setV x (s.v x + kk.toNat)) := rfl

theorem exec_ldReg (x y : RegField) : exec (.ldReg x y) s = .next (s.setV x (s.v y)) := rfl

/-- Settles O24: `ADD Vx, kk` stores the narrowed sum, and `LD Vx, Vy` a value that a register already held,
so narrowing keeps it. -/
theorem loadsAndAddImmediateWriteOneRegister : Obligations.LoadsAndAddImmediateWriteOneRegister :=
  fun s x y kk =>
    ⟨fun m => ⟨decodeWord_tableR80_addImm m x kk, decodeWord_tableR80_ldReg m x y⟩,
      completes_of_exec_setV (exec_addImm x kk),
      completes_of_exec_setV_of_lt (exec_ldReg x y) (s.v_lt y)⟩

end Sys2Proof.Machine
end

section
/-!
PROOF. The operations `tick_timers` and `set_key` of the surrounding software (spec/60_exceptions.md, R190,
R195).
-/

namespace Sys2Proof.Machine

variable {s : State}

theorem State.tickTimers_only (s : State) : KeepsAllBut [.dt, .st] s s.tickTimers := by
  intro p hp
  cases p <;> simp [Part.same, State.readByte, State.tickTimers] at hp ⊢

theorem State.keyDown_setKey_same (s : State) (k : Fin Const.nkeys) (p : Bool) :
    (s.setKey k p).keyDown k = p :=
  Vector.getElem_set_self k.isLt

theorem State.keyDown_setKey_ne {j k : Fin Const.nkeys} (p : Bool) (other : j ≠ k) :
    (s.setKey k p).keyDown j = s.keyDown j :=
  Vector.getElem_set_ne k.isLt j.isLt (Fin.val_ne_of_ne other.symm)

theorem State.setKey_only (s : State) (k : Fin Const.nkeys) (p : Bool) :
    KeepsAllBut [.keys] s (s.setKey k p) := by
  intro q hq
  cases q <;> simp [Part.same, State.readByte, State.setKey] at hq ⊢

theorem perform_tickTimers : perform .tickTimers s = .next s.tickTimers := rfl

theorem perform_setKey (k : Fin Const.nkeys) (p : Bool) :
    perform (.setKey k p) s = .next (s.setKey k p) := rfl

/-- Settles O54: truncated subtraction is the tick that stops at 0, and a key is one element of the vector. -/
theorem ticksAndKeysChangeOneElement : Obligations.TicksAndKeysChangeOneElement :=
  fun s k p =>
    ⟨⟨_, perform_tickTimers, tick_toNat s.dt, tick_toNat s.st, s.tickTimers_only⟩,
      ⟨_, perform_setKey k p, s.keyDown_setKey_same k p, fun _ other => State.keyDown_setKey_ne p other,
        s.setKey_only k p⟩⟩

end Sys2Proof.Machine
end

section
/-!
PROOF. The operation `load_program` of the surrounding software (spec/70_reset_and_hazards.md, R213).
-/

namespace Sys2Proof.Machine

variable {s : State} {bytes : List Byte}

@[simp] theorem State.setStatus_readByte (s : State) (st : Status) (a : Nat) :
    (s.setStatus st).readByte a = s.readByte a := rfl

theorem State.setStatus_only (s : State) (st : Status) : KeepsAllBut [.report] s (s.setStatus st) := by
  intro p hp
  cases p <;> simp [Part.same] at hp ⊢

theorem State.writeBytes_keepsOutside (s : State) (a : Nat) (bs : List Byte) :
    KeepsBytesOutside a bs.length s (s.writeBytes a bs) :=
  fun _ outside => s.readByte_writeBytes_outside bs outside

theorem perform_loadProgram_of_fits (fits : bytes.length ≤ s.mode.memSize - 0x200) :
    perform (.loadProgram bytes) s = .next ((s.writeBytes 0x200 bytes).setStatus .ok) :=
  congrArg Host.Outcome.next (if_pos fits)

theorem perform_loadProgram_of_too_large (large : s.mode.memSize - 0x200 < bytes.length) :
    perform (.loadProgram bytes) s = .next (s.raise (.romTooLarge bytes.length)) :=
  congrArg Host.Outcome.next (if_neg (Nat.not_le.2 large))

theorem loadProgram_copies (fits : bytes.length ≤ s.mode.memSize - 0x200) :
    ∃ t, perform (.loadProgram bytes) s = .next t ∧
      t.status = .ok ∧ t.faultLog = s.faultLog ∧
      (∀ k (h : k < bytes.length), t.readByte (0x200 + k) = bytes[k]) ∧
      KeepsBytesOutside 0x200 bytes.length s t ∧ KeepsAllBut [.mem, .report] s t := by
  have copied : KeepsAllBut [.mem, .report] s (s.writeBytes 0x200 bytes) :=
    (s.writeBytes_only 0x200 bytes).mono (by simp)
  have frame := copied.trans ((State.setStatus_only _ .ok).mono (by simp))
  exact ⟨_, perform_loadProgram_of_fits fits, rfl, s.writeBytes_faultLog 0x200 bytes,
    s.readByte_writeBytes_inside 0x200 bytes, s.writeBytes_keepsOutside 0x200 bytes, frame⟩

theorem loadProgram_rejects (large : s.mode.memSize - 0x200 < bytes.length) :
    ∃ t, perform (.loadProgram bytes) s = .next t ∧ Reports (.romTooLarge bytes.length) s t :=
  ⟨_, perform_loadProgram_of_too_large large, s.raise_reports _⟩

/-- Settles O56: an image that fits is one write of bytes, whose frame composes with that of the result; a
longer one is one report on the state as it was. -/
theorem loadProgramCopiesTheImageOrRejects : Obligations.LoadProgramCopiesTheImageOrRejects :=
  fun _ _ => ⟨loadProgram_copies, loadProgram_rejects⟩

end Sys2Proof.Machine
end

section
/-!
PROOF. What an instruction can do, said once: for each operation the elements of the state it writes, for each
instruction the registers it writes, and that every instruction ends in one report or in such writes (the
effects of spec/40_control_flow.md to spec/49_call_with_parameters.md; spec/60_exceptions.md, R181).
-/

namespace Sys2Proof

open Machine

/-- The elements of the state that an operation may write when it reports no error condition. -/
def Op.writes : Op → List Part
  | .cls => [.fb, .redraw]
  | .ret | .callp | .call => [.stack, .pc]
  | .retv => [.regs, .stack, .pc]
  | .jp | .jpV0 | .seImm | .sneImm | .seReg | .sneReg | .skp | .sknp => [.pc]
  | .bcopy | .ldB => [.mem]
  | .ldMemVx => [.mem, .index]
  | .ldVxMem => [.regs, .index]
  | .drw | .drw16 | .drw32 | .hline | .vline => [.fb, .regs, .redraw]
  | .ldI | .addI | .ldF => [.index]
  | .rnd | .rndw | .rndb => [.draws, .regs]
  | .ldVxK => [.regs, .pc]
  | .ldDtVx => [.dt]
  | .ldStVx => [.st]
  | _ => [.regs]

/-- The physical registers that an instruction may write in a mode. -/
def Instr.targets (m : Mode) : Instr → List (Fin Const.physRegs)
  | .retv => [Const.aux3, Const.aux2, Const.aux1, Const.result]
  | .vadd x _ => [fieldReg x, nextReg m (fieldReg x)]
  | .dot x _ | .addReg x _ | .sub x _ | .shr x | .subn x _ | .mul x _ | .div x _ | .shl x =>
    [fieldReg x, flagReg m]
  | .bsrch _ _ | .drw _ _ _ | .drw16 _ _ | .drw32 _ _ | .hline _ _ | .vline _ _ => [flagReg m]
  | .rndb x _ | .ldImm x _ | .addImm x _ | .ldReg x _ | .orReg x _ | .andReg x _ | .xorReg x _
  | .ror x _ | .rol x _ | .popcnt x _ | .rnd x _ | .rndw x | .ldVxDt x | .ldVxK x => [fieldReg x]
  | .ldVxMem x => (List.range (x.toNat + 1)).map fun n => fieldReg (BitVec.ofNat 4 n)
  | _ => []

end Sys2Proof

namespace Sys2Proof.Machine

variable {s t u : State} {ps qs : List Part} {rs ks : List (Fin Const.physRegs)}

/-- From `s` to `t` only the elements `ps` and the registers `rs` are written, each register with a value of
the mode's width. -/
structure Touches (ps : List Part) (rs : List (Fin Const.physRegs)) (s t : State) : Prop where
  parts : KeepsAllBut ps s t
  mem : .mem ∉ ps → t.mem = s.mem
  mode : t.mode = s.mode
  regs : ∀ i : Fin Const.physRegs, t.regs[i.val]'i.isLt = s.regs[i.val]'i.isLt ∨
    i ∈ rs ∧ ∃ v, t.regs[i.val]'i.isLt = BitVec.ofNat 64 (v % 2 ^ s.mode.regBits)

theorem Touches.mono (h : Touches ps rs s t) (parts : ps ⊆ qs) (regs : rs ⊆ ks) : Touches qs ks s t where
  parts := h.parts.mono parts
  mem other := h.mem fun hp => other (parts hp)
  mode := h.mode
  regs i := (h.regs i).imp_right fun ⟨hi, fits⟩ => ⟨regs hi, fits⟩

theorem Touches.trans (h : Touches ps rs s t) (k : Touches ps rs t u) : Touches ps rs s u where
  parts := h.parts.trans k.parts
  mem other := (k.mem other).trans (h.mem other)
  mode := k.mode.trans h.mode
  regs i := by
    rcases k.regs i with same | ⟨hi, fits⟩
    · rw [same]
      exact h.regs i
    · rw [h.mode] at fits
      exact .inr ⟨hi, fits⟩

/-- One write after another. -/
theorem Touches.seq (h : Touches ps rs s t) (k : Touches qs ks t u) : Touches (ps ++ qs) (rs ++ ks) s u :=
  (h.mono (List.subset_append_left _ _) (List.subset_append_left _ _)).trans
    (k.mono (List.subset_append_right _ _) (List.subset_append_right _ _))

theorem Touches.of_regs_eq (parts : KeepsAllBut ps s t) (mem : .mem ∉ ps → t.mem = s.mem)
    (mode : t.mode = s.mode) (regs : t.regs = s.regs) : Touches ps [] s t where
  parts := parts
  mem := mem
  mode := mode
  regs _ := .inl (by rw [regs])

/-! ## The setters -/

theorem touches_self (s : State) : Touches [] [] s s :=
  .of_regs_eq (fun p _ => by cases p <;> simp [Part.same]) (fun _ => rfl) rfl rfl

theorem touches_setReg (s : State) (i : Fin Const.physRegs) (v : Nat) :
    Touches [.regs] [i] s (s.setReg i v) where
  parts p hp := by cases p <;> simp [Part.same, State.readByte] at hp ⊢
  mem _ := rfl
  mode := rfl
  regs j := by
    by_cases h : j = i
    · subst h
      exact .inr ⟨List.mem_singleton_self _, v, s.regs_setReg_same j v⟩
    · exact .inl (s.regs_setReg_ne h v)

theorem touches_setPc (s : State) (a : Addr) : Touches [.pc] [] s (s.setPc a) :=
  .of_regs_eq (s.setPc_only a) (fun _ => rfl) rfl rfl

theorem touches_setIndex (s : State) (a : Addr) : Touches [.index] [] s (s.setIndex a) :=
  .of_regs_eq (fun p hp => by cases p <;> simp [Part.same, State.readByte] at hp ⊢) (fun _ => rfl) rfl rfl

theorem touches_setStack (s : State) (k : Vector Cell64 Const.stackDepth) (n : Nat) :
    Touches [.stack] [] s (s.setStack k n) :=
  .of_regs_eq (fun p hp => by cases p <;> simp [Part.same, State.readByte] at hp ⊢) (fun _ => rfl) rfl rfl

theorem touches_setFb (s : State) (p : Pixels) : Touches [.fb] [] s (s.setFb p) :=
  .of_regs_eq (fun p hp => by cases p <;> simp [Part.same, State.readByte] at hp ⊢) (fun _ => rfl) rfl rfl

theorem touches_setRedraw (s : State) (b : Bool) : Touches [.redraw] [] s (s.setRedraw b) :=
  .of_regs_eq (fun p hp => by cases p <;> simp [Part.same, State.readByte] at hp ⊢) (fun _ => rfl) rfl rfl

theorem touches_setDt (s : State) (v : BitVec 8) : Touches [.dt] [] s (s.setDt v) :=
  .of_regs_eq (fun p hp => by cases p <;> simp [Part.same, State.readByte] at hp ⊢) (fun _ => rfl) rfl rfl

theorem touches_setSt (s : State) (v : BitVec 8) : Touches [.st] [] s (s.setSt v) :=
  .of_regs_eq (fun p hp => by cases p <;> simp [Part.same, State.readByte] at hp ⊢) (fun _ => rfl) rfl rfl

theorem touches_setDraws (s : State) (n : Nat) : Touches [.draws] [] s (s.setDraws n) :=
  .of_regs_eq (fun p hp => by cases p <;> simp [Part.same, State.readByte] at hp ⊢) (fun _ => rfl) rfl rfl

theorem touches_writeBytes (s : State) (a : Nat) (bs : List Byte) : Touches [.mem] [] s (s.writeBytes a bs) :=
  .of_regs_eq (s.writeBytes_only a bs) (fun other => absurd (List.mem_singleton_self _) other)
    (s.writeBytes_mode a bs) (s.writeBytes_regs a bs)

/-! ## The shared operations -/

theorem touches_setReg_setReg (s : State) (i j : Fin Const.physRegs) (v w : Nat) :
    Touches [.regs] [i, j] s ((s.setReg i v).setReg j w) :=
  ((touches_setReg s i v).seq (touches_setReg (s.setReg i v) j w)).mono (by decide) (List.Subset.refl _)

theorem touches_setResultFlag (s : State) (i : Fin Const.physRegs) (result flag : Nat) :
    Touches [.regs] [i, flagReg s.mode] s (s.setResultFlag i result flag) :=
  touches_setReg_setReg s i (flagReg s.mode) result flag

theorem touches_skipIf (s : State) (b : Bool) : Touches [.pc] [] s (s.skipIf b) := by
  cases b
  · exact (touches_self s).mono (by decide) (List.Subset.refl _)
  · exact touches_setPc s _

theorem touches_drawDots (s : State) (dots : List Dot) :
    Touches [.fb, .regs, .redraw] [flagReg s.mode] s (s.drawDots dots) :=
  ((touches_setFb s _).seq (touches_setReg _ (flagReg s.mode) _)).seq (touches_setRedraw _ true)

theorem touches_pushFrame (s : State) : Touches [.stack] [] s s.pushFrame :=
  (((touches_setStack s _ _).trans (touches_setStack _ _ _)).trans (touches_setStack _ _ _)).trans
    (touches_setStack _ _ _)

theorem touches_popReg (s : State) (i : Fin Const.physRegs) : Touches [.regs, .stack] [i] s (s.popReg i) :=
  (touches_setReg s i _).seq (touches_setStack _ _ _)

theorem touches_popPc (s : State) : Touches [.pc, .stack] [] s s.popPc :=
  (touches_setPc s _).seq (touches_setStack _ _ _)

theorem touches_autoAdvance (s : State) (len : Nat) : Touches [.index] [] s (s.autoAdvance len) := by
  unfold State.autoAdvance
  split
  · exact touches_setIndex s _
  · exact (touches_self s).mono (by decide) (List.Subset.refl _)

theorem touches_loadRegs (s t : State) (n : Nat) :
    Touches [.regs] ((List.range n).map fun k => fieldReg (BitVec.ofNat 4 k)) s (s.loadRegs t n) := by
  induction n with
  | zero => exact (touches_self s).mono (by decide) (List.Subset.refl _)
  | succ n ih =>
    rw [List.range_succ, List.map_append]
    exact (ih.seq (touches_setReg (s.loadRegs t n) _ _)).mono (by decide) (List.Subset.refl _)

/-! ## Every instruction -/

/-- An operation ends in one report and nothing else, or in writes of the elements `ps` and the registers
`rs`. -/
def Ends (ps : List Part) (rs : List (Fin Const.physRegs)) (s t : State) : Prop :=
  (∃ e, t = s.raise e) ∨ Touches ps rs s t

theorem ends_checkSpan {a len : Nat} {rest : State} (h : Touches ps rs s rest) :
    Ends ps rs s (s.checkSpan a len rest) :=
  s.checkSpan_prop (.inr h) fun e => .inl ⟨e, rfl⟩

theorem ends_guarded {c : Prop} [Decidable c] {e : ErrorCond} {rest : State} (h : Touches ps rs s rest) :
    Ends ps rs s (if c then rest else s.raise e) :=
  s.guarded_prop (.inr h) fun e => .inl ⟨e, rfl⟩

theorem ends_retv (s : State) : Completes .retv s (Ends Op.retv.writes (Instr.retv.targets s.mode) s) :=
  ⟨_, rfl, ends_guarded
    ((((((touches_popReg s _).seq (touches_popReg _ _)).seq (touches_popReg _ _)).seq (touches_popPc _)).seq
      (touches_setReg _ _ _)).mono (by decide) (List.Subset.refl _))⟩

theorem ends_bcopy (x y : RegField) (s : State) : Completes (.bcopy x y) s (Ends [.mem] [] s) :=
  ⟨_, rfl, s.checkSpan_prop (ends_checkSpan (touches_writeBytes s _ _)) fun e => .inl ⟨e, rfl⟩⟩

theorem touches_drawn_setV (s : State) (x : RegField) (v : Nat) :
    Touches [.draws, .regs] [fieldReg x] s (s.drawn.setV x v) :=
  (touches_setDraws s _).seq (touches_setReg _ _ _)

theorem touches_rndb (x y : RegField) (s : State) : Touches [.draws, .regs] [fieldReg x] s
    (if s.v y = 0 then s.setV x 0 else s.drawn.setV x (s.drawBelow (s.v y))) := by
  split
  · exact (touches_setReg s _ _).mono (by decide) (List.Subset.refl _)
  · exact touches_drawn_setV s x _

theorem touches_ldVxK (x : RegField) (s : State) : Completes (.ldVxK x) s
    (Touches [.regs, .pc] [fieldReg x] s) := by
  refine ⟨_, rfl, ?_⟩
  split
  · exact (touches_setReg s _ _).mono (by decide) (List.Subset.refl _)
  · exact (touches_setPc s _).mono (by decide) (List.nil_subset _)

/-- Every instruction answers a next state: one report on the state as it was, or writes of its own elements
and registers. -/
theorem exec_ends (i : Instr) (s : State) : Completes i s (Ends i.op.writes (i.targets s.mode) s) := by
  cases i with
  | cls => exact ⟨_, rfl, .inr ((touches_setFb s _).seq (touches_setRedraw _ _))⟩
  | ret => exact ⟨_, rfl, ends_guarded ((touches_setStack s _ _).seq (touches_setPc _ _))⟩
  | retv => exact ends_retv s
  | callp nnn => exact ⟨_, rfl, ends_guarded ((touches_pushFrame s).seq (touches_setPc _ _))⟩
  | jp nnn => exact ⟨_, rfl, .inr (touches_setPc s _)⟩
  | call nnn => exact ⟨_, rfl, ends_guarded ((touches_setStack s _ _).seq (touches_setPc _ _))⟩
  | seImm x kk => exact ⟨_, rfl, .inr (touches_skipIf s _)⟩
  | sneImm x kk => exact ⟨_, rfl, .inr (touches_skipIf s _)⟩
  | seReg x y => exact ⟨_, rfl, .inr (touches_skipIf s _)⟩
  | vadd x y => exact ⟨_, rfl, .inr (touches_setReg_setReg s _ _ _ _)⟩
  | dot x y => exact ⟨_, rfl, .inr (touches_setResultFlag s _ _ _)⟩
  | bcopy x y => exact ends_bcopy x y s
  | bsrch x y => exact ⟨_, rfl, ends_checkSpan (touches_setReg s _ _)⟩
  | rndb x y => exact ⟨_, rfl, .inr (touches_rndb x y s)⟩
  | ldImm x kk => exact ⟨_, rfl, .inr (touches_setReg s _ _)⟩
  | addImm x kk => exact ⟨_, rfl, .inr (touches_setReg s _ _)⟩
  | ldReg x y => exact ⟨_, rfl, .inr (touches_setReg s _ _)⟩
  | orReg x y => exact ⟨_, rfl, .inr (touches_setReg s _ _)⟩
  | andReg x y => exact ⟨_, rfl, .inr (touches_setReg s _ _)⟩
  | xorReg x y => exact ⟨_, rfl, .inr (touches_setReg s _ _)⟩
  | addReg x y => exact ⟨_, rfl, .inr (touches_setResultFlag s _ _ _)⟩
  | sub x y => exact ⟨_, rfl, .inr (touches_setResultFlag s _ _ _)⟩
  | shr x => exact ⟨_, rfl, .inr (touches_setResultFlag s _ _ _)⟩
  | subn x y => exact ⟨_, rfl, .inr (touches_setResultFlag s _ _ _)⟩
  | mul x y => exact ⟨_, rfl, .inr (touches_setResultFlag s _ _ _)⟩
  | div x y => exact ⟨_, rfl, .inr (touches_setResultFlag s _ _ _)⟩
  | ror x y => exact ⟨_, rfl, .inr (touches_setReg s _ _)⟩
  | rol x y => exact ⟨_, rfl, .inr (touches_setReg s _ _)⟩
  | popcnt x y => exact ⟨_, rfl, .inr (touches_setReg s _ _)⟩
  | shl x => exact ⟨_, rfl, .inr (touches_setResultFlag s _ _ _)⟩
  | sneReg x y => exact ⟨_, rfl, .inr (touches_skipIf s _)⟩
  | drw16 x y => exact ⟨_, rfl, ends_checkSpan (touches_drawDots s _)⟩
  | drw32 x y => exact ⟨_, rfl, ends_checkSpan (touches_drawDots s _)⟩
  | hline x y => exact ⟨_, rfl, .inr (touches_drawDots s _)⟩
  | vline x y => exact ⟨_, rfl, .inr (touches_drawDots s _)⟩
  | ldI nnn => exact ⟨_, rfl, .inr (touches_setIndex s _)⟩
  | jpV0 nnn => exact ⟨_, rfl, .inr (touches_setPc s _)⟩
  | rnd x kk => exact ⟨_, rfl, .inr (touches_drawn_setV s x _)⟩
  | drw x y n => exact ⟨_, rfl, ends_checkSpan (touches_drawDots s _)⟩
  | skp x => exact ⟨_, rfl, .inr (touches_skipIf s _)⟩
  | sknp x => exact ⟨_, rfl, .inr (touches_skipIf s _)⟩
  | rndw x => exact ⟨_, rfl, .inr (touches_drawn_setV s x _)⟩
  | ldVxDt x => exact ⟨_, rfl, .inr (touches_setReg s _ _)⟩
  | ldVxK x => exact (touches_ldVxK x s).imp fun _ ⟨run, h⟩ => ⟨run, .inr h⟩
  | ldDtVx x => exact ⟨_, rfl, .inr (touches_setDt s _)⟩
  | ldStVx x => exact ⟨_, rfl, .inr (touches_setSt s _)⟩
  | addI x => exact ⟨_, rfl, .inr (touches_setIndex s _)⟩
  | ldF x => exact ⟨_, rfl, .inr (touches_setIndex s _)⟩
  | ldB x => exact ⟨_, rfl, ends_checkSpan (touches_writeBytes s _ _)⟩
  | ldMemVx x => exact ⟨_, rfl, ends_checkSpan ((touches_writeBytes s _ _).seq (touches_autoAdvance _ _))⟩
  | ldVxMem x =>
    exact ⟨_, rfl, ends_checkSpan (((touches_loadRegs s s _).seq (touches_autoAdvance _ _)).mono
      (List.Subset.refl _) (by simp [Instr.targets]))⟩

/-- Whatever an instruction answers, it ends so. -/
theorem ends_of_exec {i : Instr} (run : exec i s = .next t) : Ends i.op.writes (i.targets s.mode) s t := by
  obtain ⟨t', run', h⟩ := exec_ends i s
  rw [run] at run'
  cases run'
  exact h

/-! ## What both ends leave -/

theorem State.raise_same (s : State) (e : ErrorCond) {p : Part} (hp : p ≠ .report) : p.same s (s.raise e) :=
  (s.raise_reports e).2.2 p (by simpa using hp)

/-- An instruction leaves every element that it does not write, but the report. -/
theorem Ends.same (h : Ends ps rs s t) {p : Part} (other : p ∉ ps) (hp : p ≠ .report) : p.same s t := by
  rcases h with ⟨e, rfl⟩ | h
  · exact s.raise_same e hp
  · exact h.parts p other

theorem Ends.mem (h : Ends ps rs s t) (other : .mem ∉ ps) : t.mem = s.mem := by
  rcases h with ⟨e, rfl⟩ | h
  · exact s.raise_mem e
  · exact h.mem other

theorem Ends.mode (h : Ends ps rs s t) : t.mode = s.mode := by
  rcases h with ⟨e, rfl⟩ | h
  · exact s.raise_mode e
  · exact h.mode

/-- A register after an instruction: as it was, or one of those it writes, with a value of the mode's
width. -/
theorem Ends.regs (h : Ends ps rs s t) (i : Fin Const.physRegs) :
    t.regs[i.val]'i.isLt = s.regs[i.val]'i.isLt ∨
      i ∈ rs ∧ ∃ v, t.regs[i.val]'i.isLt = BitVec.ofNat 64 (v % 2 ^ s.mode.regBits) := by
  rcases h with ⟨e, rfl⟩ | h
  · exact .inl rfl
  · exact h.regs i

/-- No operation writes what only the surrounding software writes. -/
theorem host_not_written (o : Op) : ∀ p ∈ [Part.mode, .keys, .effect, .cycle, .eb, .cfg, .report],
    p ∉ o.writes := by
  cases o <;> decide

/-- Settles O12: none of the elements is one that an instruction writes. -/
theorem noInstructionTouchesHostState : Obligations.NoInstructionTouchesHostState := by
  intro i s t run
  have keeps (p : Part) (host : p ∈ [Part.mode, .keys, .effect, .cycle, .eb, .cfg, .report])
      (hp : p ≠ .report) : p.same s t :=
    (ends_of_exec run).same (host_not_written i.op p host) hp
  obtain ⟨frames, palette⟩ := keeps .cycle (by decide) (by decide)
  exact ⟨keeps .mode (by decide) (by decide), keeps .keys (by decide) (by decide),
    keeps .effect (by decide) (by decide), frames, palette, keeps .eb (by decide) (by decide),
    keeps .cfg (by decide) (by decide)⟩

end Sys2Proof.Machine
end

section
/-!
PROOF. One step: its three ends (spec/30_encoding.md, R70, R71, R83; spec/20_memory.md, R58), and what it
reports (spec/60_exceptions.md, R181, R186).
-/

namespace Sys2Proof.Machine

variable {s t : State} {i : Instr} {e : ErrorCond}

theorem step_of_decoded (mem : s.canFetch = true)
    (decoded : decodeWord s.cfg.table s.mode (s.opcodeAt s.pc.toNat) = some i) :
    step s = exec i s.advance := by
  simp [step, fetch, mem, decoded]

theorem step_of_outside (outside : s.canFetch = false) :
    step s = .next (s.raise (.memoryFault s.pc.toNat 2)) := by
  simp [step, fetch, outside]

/-- What a step can do: report a failed fetch, report an unknown opcode past its word, or run an instruction
past its word. -/
theorem step_cases (s : State) :
    (s.canFetch = false ∧ ∃ e, step s = .next (s.raise e)) ∨
    (s.canFetch = true ∧
      ((∃ e, step s = .next (s.advance.raise e)) ∨ ∃ i, step s = exec i s.advance)) := by
  cases mem : s.canFetch
  · exact .inl ⟨rfl, _, step_of_outside mem⟩
  · refine .inr ⟨rfl, ?_⟩
    cases decoded : decodeWord s.cfg.table s.mode (s.opcodeAt s.pc.toNat) with
    | none => exact .inl ⟨_, step_of_unknown mem decoded⟩
    | some i => exact .inr ⟨i, step_of_decoded mem decoded⟩

/-- What a step that answers `t` has done, with the instruction that ran split into its two ends. -/
theorem step_ends (run : step s = .next t) :
    (s.canFetch = false ∧ ∃ e, t = s.raise e) ∨
    (s.canFetch = true ∧ ((∃ e, t = s.advance.raise e) ∨
      ∃ i : Instr, Touches i.op.writes (i.targets s.mode) s.advance t)) := by
  rcases step_cases s with ⟨mem, e, eq⟩ | ⟨mem, ⟨e, eq⟩ | ⟨i, eq⟩⟩ <;> rw [run] at eq
  · cases eq
    exact .inl ⟨mem, e, rfl⟩
  · cases eq
    exact .inr ⟨mem, .inl ⟨e, rfl⟩⟩
  · exact .inr ⟨mem, (ends_of_exec eq.symm).imp_right fun touched => ⟨i, touched⟩⟩

/-- An instruction that only writes leaves the report of the fetch phase. -/
theorem report_of_touches {rs : List (Fin Const.physRegs)} (touched : Touches i.op.writes rs s.advance t) :
    t.status = .ok ∧ t.faultLog = s.faultLog :=
  touched.parts .report (host_not_written i.op .report (by decide))

/-- Settles O5: the state after the fetch phase, written out. -/
theorem stepRunsTheDecodedInstruction : Obligations.StepRunsTheDecodedInstruction :=
  fun _ _ mem decoded => step_of_decoded (State.canFetch_iff.2 mem) decoded

/-- Settles O7: the report leaves `pc` and the mode, so the next fetch fails alike. -/
theorem fetchOutsideMemoryRepeatsItsFault : Obligations.FetchOutsideMemoryRepeatsItsFault := by
  intro s outside
  have failed : s.canFetch = false := by simpa [State.canFetch] using outside
  have again : (s.raise (.memoryFault s.pc.toNat 2)).canFetch = false := failed
  exact ⟨_, _, step_of_outside failed, s.raise_reports _, step_of_outside again, State.raise_reports _ _⟩

/-- Settles O8: two ends of a step are next states, and every instruction completes. -/
theorem everyStepAnswersNextState : Obligations.EveryStepAnswersNextState := by
  intro s
  rcases step_cases s with ⟨-, e, run⟩ | ⟨-, ⟨e, run⟩ | ⟨i, run⟩⟩
  · exact ⟨_, run⟩
  · exact ⟨_, run⟩
  · obtain ⟨t, answers, -⟩ := exec_ends i s.advance
    exact ⟨t, run.trans answers⟩

/-- Settles O9: each report puts one error in front of the log, and an instruction that reports nothing leaves
both outputs as the fetch phase set them. -/
theorem stepReportsAtMostOneError : Obligations.StepReportsAtMostOneError := by
  intro s t run
  rcases step_ends run with ⟨-, e, rfl⟩ | ⟨-, ⟨e, rfl⟩ | ⟨i, touched⟩⟩
  · exact .inr ⟨e, rfl, rfl⟩
  · exact .inr ⟨e, rfl, rfl⟩
  · exact .inl (report_of_touches touched)

/-- A report past the fetch phase changes `pc` and the report only. -/
theorem State.advance_raise_only (s : State) (e : ErrorCond) :
    KeepsAllBut [.pc, .report] s (s.advance.raise e) :=
  s.advance_only.trans ((s.advance.raise_reports e).2.2.mono (List.subset_cons_self _ _))

/-- Settles O10: an error status means one report, on the state as it was or on the advanced state. -/
theorem errorStepIsANoOp : Obligations.ErrorStepIsANoOp := by
  intro s t e run status
  rcases step_ends run with ⟨mem, e', rfl⟩ | ⟨mem, ⟨e', rfl⟩ | ⟨i, touched⟩⟩
  · have outside : ¬ s.pc.toNat + 2 ≤ s.mode.memSize := by simpa [State.canFetch] using mem
    exact ⟨(s.raise_reports e').2.2.mono (by simp), (if_neg outside).symm⟩
  · exact ⟨s.advance_raise_only e', (if_pos (State.canFetch_iff.1 mem)).symm⟩
  · rw [(report_of_touches touched).1] at status
    cases status

end Sys2Proof.Machine
end

section
/-!
PROOF. Which instructions write an element (spec/10_state.md, R26, R27, R32, R34, R35, R40; spec/20_memory.md,
R50, R56).
-/

namespace Sys2Proof.Machine

variable {s t : State} {m : Mode} {j : Fin Const.physRegs}

theorem display_of_writes {i : Instr} (h : .fb ∈ i.op.writes ∨ .redraw ∈ i.op.writes) :
    i.isDisplay = true := by
  cases i <;> simp [Instr.op, Op.writes] at h <;> rfl

theorem storesToMemory_of_writes {i : Instr} (h : .mem ∈ i.op.writes) : i.storesToMemory = true := by
  cases i <;> simp [Instr.op, Op.writes] at h <;> rfl

theorem writesIndex_of_writes {i : Instr} (h : .index ∈ i.op.writes) : i.writesIndex = true := by
  cases i <;> simp [Instr.op, Op.writes] at h <;> rfl

theorem usesStack_of_writes {i : Instr} (h : .stack ∈ i.op.writes) : i.usesStack = true := by
  cases i <;> simp [Instr.op, Op.writes] at h <;> rfl

theorem draws_of_writes {i : Instr} (h : .draws ∈ i.op.writes) : i.draws = true := by
  cases i <;> simp [Instr.op, Op.writes] at h <;> rfl

theorem ldDtVx_of_writes {i : Instr} (h : .dt ∈ i.op.writes) : ∃ x, i = .ldDtVx x := by
  cases i <;> simp [Instr.op, Op.writes] at h
  exact ⟨_, rfl⟩

theorem ldStVx_of_writes {i : Instr} (h : .st ∈ i.op.writes) : ∃ x, i = .ldStVx x := by
  cases i <;> simp [Instr.op, Op.writes] at h
  exact ⟨_, rfl⟩

/-- Settles O13: an instruction outside a class does not write the element of that class. -/
theorem framebufferMemoryIndexStackTimersAndDrawsHaveTheirWriters :
    Obligations.FramebufferMemoryIndexStackTimersAndDrawsHaveTheirWriters := by
  intro i s t run
  have ends := ends_of_exec run
  refine ⟨fun other => ⟨?_, ?_⟩, fun other => ?_, fun other => ?_, fun other => ?_, fun other => ?_,
    fun other => ?_, fun other => ?_⟩
  · exact ends.same (p := .fb) (fun h => by simp [display_of_writes (.inl h)] at other) (by decide)
  · exact ends.same (p := .redraw) (fun h => by simp [display_of_writes (.inr h)] at other) (by decide)
  · exact ends.mem fun h => by simp [storesToMemory_of_writes h] at other
  · exact ends.same (p := .index) (fun h => by simp [writesIndex_of_writes h] at other) (by decide)
  · exact ends.same (p := .stack) (fun h => by simp [usesStack_of_writes h] at other) (by decide)
  · exact ends.same (p := .dt) (fun h => (ldDtVx_of_writes h).elim other) (by decide)
  · exact ends.same (p := .st) (fun h => (ldStVx_of_writes h).elim other) (by decide)
  · exact ends.same (p := .draws) (fun h => by simp [draws_of_writes h] at other) (by decide)

/-! ## Registers above 15 -/

theorem flagReg_upper (upper : 16 ≤ (flagReg m).val) : m = .extended64 ∧ (flagReg m).val = 31 := by
  cases m <;> simp [flagReg, Mode.regCount] at upper ⊢

/-- The pair of a field's register lies above 15 for register 15 in `Extended64` only (R127). -/
theorem pair_upper {x : RegField} (upper : 16 ≤ (nextReg m (fieldReg x)).val) :
    m = .extended64 ∧ (nextReg m (fieldReg x)).val = 16 ∧ x = 15#4 := by
  have hx := x.isLt
  cases m <;> simp [nextReg, fieldReg, Mode.regCount] at upper ⊢ <;> bv_omega

/-- A register that an instruction writes: one that a field can name, the flags register, or the pair of
`VADD`. -/
theorem target_cases {i : Instr} (h : j ∈ i.targets m) :
    j.val < 16 ∨ j = flagReg m ∨ ∃ x y, i = .vadd x y ∧ j = nextReg m (fieldReg x) := by
  cases i <;> simp only [Instr.targets, List.mem_cons, List.mem_map, List.not_mem_nil] at h <;>
    grind [fieldReg_lt]

/-- Settles O14: a changed register above 15 is one that the instruction writes, so it is the flags register
or the pair of register 15. -/
theorem upperRegistersAreWrittenAsPairPartnerOrFlagOnly :
    Obligations.UpperRegistersAreWrittenAsPairPartnerOrFlagOnly := by
  intro i s t j run upper changed
  have written : j ∈ i.targets s.mode := by
    rcases (ends_of_exec run).regs j with same | ⟨written, -⟩
    · exact absurd same changed
    · exact written
  rcases target_cases written with low | rfl | ⟨x, y, rfl, rfl⟩
  · omega
  · obtain ⟨wide, last⟩ := flagReg_upper upper
    exact ⟨wide, .inr last⟩
  · obtain ⟨wide, pair, rfl⟩ := pair_upper upper
    exact ⟨wide, .inl ⟨pair, y, rfl⟩⟩

end Sys2Proof.Machine
end

section
/-!
PROOF. What the instructions keep of the invariant (spec/10_state.md, R43): the canonical memory, the bound of
the stack pointer, the canonical framebuffer, the widths of the registers.
-/

namespace Sys2Proof.Machine

variable {s t : State} {i : Instr}

/-! ## The writers of an element, by name -/

theorem storesToMemory_cases (h : i.storesToMemory = true) :
    (∃ x, i = .ldB x) ∨ (∃ x, i = .ldMemVx x) ∨ ∃ x y, i = .bcopy x y := by
  cases i <;> simp [Instr.storesToMemory] at h ⊢

theorem usesStack_cases (h : i.usesStack = true) :
    i = .ret ∨ i = .retv ∨ (∃ nnn, i = .call nnn) ∨ ∃ nnn, i = .callp nnn := by
  cases i <;> simp [Instr.usesStack] at h ⊢

theorem isDisplay_cases (h : i.isDisplay = true) :
    i = .cls ∨ (∃ x y n, i = .drw x y n) ∨ (∃ x y, i = .drw16 x y) ∨ (∃ x y, i = .drw32 x y) ∨
      (∃ x y, i = .hline x y) ∨ ∃ x y, i = .vline x y := by
  cases i <;> simp [Instr.isDisplay] at h ⊢

/-! ## Memory -/

/-- The memory list is canonical for the configured font. -/
def State.memoryCanonical (s : State) : Prop := Memory.wf s.cfg.font s.mem = true

theorem State.memoryCanonical_congr (cfg : t.cfg = s.cfg) (mem : t.mem = s.mem) (h : s.memoryCanonical) :
    t.memoryCanonical := by
  rw [State.memoryCanonical, cfg, mem]
  exact h

/-- A span that passes its check ends in physical memory. -/
theorem State.spanOk_phys {a len : Nat} (ha : a ≤ Const.physMem) (ok : s.spanOk a len = true) :
    a + len ≤ Const.physMem := by
  rcases (s.spanOk_iff a len).1 ok with rfl | inside
  · exact ha
  · exact inside.trans (memSize_le s.mode)

/-- A checked write of bytes, whatever else follows outside memory, keeps the memory canonical. -/
theorem memoryCanonical_checkedWrite {a : Nat} {bs : List Byte} {rest : State} (h : s.memoryCanonical)
    (ha : a ≤ Const.physMem) (cfg : rest.cfg = s.cfg) (mem : rest.mem = (s.writeBytes a bs).mem) :
    (s.checkSpan a bs.length rest).memoryCanonical := by
  rcases s.checkSpan_cases a bs.length rest with ⟨ok, eq⟩ | ⟨-, eq⟩ <;> rw [eq]
  · exact State.memoryCanonical_congr (by simp [cfg]) mem
      (s.wf_writeBytes a bs (State.spanOk_phys ha ok) h)
  · exact h

theorem memoryCanonical_ldB (h : s.memoryCanonical) (x : RegField) :
    Completes (.ldB x) s State.memoryCanonical := by
  refine ⟨_, rfl, ?_⟩
  have := memoryCanonical_checkedWrite (bs := bcdDigits s.mode.digits (s.v x)) h s.index.isLt.le
    (s.writeBytes_cfg _ _) rfl
  rwa [bcdDigits_length] at this

theorem memoryCanonical_ldMemVx (h : s.memoryCanonical) (x : RegField) :
    Completes (.ldMemVx x) s State.memoryCanonical := by
  refine ⟨_, rfl, ?_⟩
  have := memoryCanonical_checkedWrite (bs := s.bulkBytes x)
    (rest := (s.writeBytes s.index.toNat (s.bulkBytes x)).autoAdvance (s.bulkLength x)) h s.index.isLt.le
    (by simp) (by simp)
  rwa [State.bulkBytes_length] at this

theorem memoryCanonical_bcopy (h : s.memoryCanonical) (x y : RegField) :
    Completes (.bcopy x y) s State.memoryCanonical := by
  refine ⟨_, rfl, s.checkSpan_prop ?_ fun _ => h⟩
  have target : s.copyTarget x ≤ Const.physMem := (Nat.mod_lt _ (Nat.two_pow_pos 16)).le
  have := memoryCanonical_checkedWrite (bs := s.readBytes s.index.toNat (s.v y)) h target
    (s.writeBytes_cfg _ _) rfl
  rwa [State.readBytes_length] at this

theorem Completes.of_exec {P : State → Prop} (h : Completes i s P) (run : exec i s = .next t) : P t := by
  obtain ⟨t', run', holds⟩ := h
  rw [run] at run'
  cases run'
  exact holds

theorem exec_keeps_memory (h : s.memoryCanonical) (run : exec i s = .next t) : t.memoryCanonical := by
  have ends := ends_of_exec run
  by_cases written : .mem ∈ i.op.writes
  · obtain ⟨x, rfl⟩ | ⟨x, rfl⟩ | ⟨x, y, rfl⟩ :=
      storesToMemory_cases (storesToMemory_of_writes written)
    · exact (memoryCanonical_ldB h x).of_exec run
    · exact (memoryCanonical_ldMemVx h x).of_exec run
    · exact (memoryCanonical_bcopy h x y).of_exec run
  · exact State.memoryCanonical_congr
      (ends.same (p := .cfg) (host_not_written i.op .cfg (by decide)) (by decide)) (ends.mem written) h

/-! ## The stack pointer -/

theorem exec_keeps_sp (h : s.sp ≤ Const.stackDepth) (run : exec i s = .next t) :
    t.sp ≤ Const.stackDepth := by
  by_cases written : .stack ∈ i.op.writes
  · have pops (n : Nat) : s.sp - n ≤ Const.stackDepth := (Nat.sub_le _ _).trans h
    have pushes (n : Nat) (free : s.hasFree n = true) : s.sp + n ≤ Const.stackDepth := by
      simpa [State.hasFree] using free
    obtain rfl | rfl | ⟨nnn, rfl⟩ | ⟨nnn, rfl⟩ := usesStack_cases (usesStack_of_writes written) <;>
      cases run <;> split
    · exact pops 1
    · exact h
    · exact pops 4
    · exact h
    · exact pushes 1 ‹_›
    · exact h
    · exact pushes 4 ‹_›
    · exact h
  · have same : Part.same s t .stack := (ends_of_exec run).same written (by decide)
    exact same.2.trans_le h

/-! ## The framebuffer -/

/-- What `Config.valid` says of the display dimensions, the palette and the search window (R7). -/
theorem Config.valid_iff (c : Config) : c.valid = true ↔
    (1 ≤ c.dw16 ∧ 1 ≤ c.dh16 ∧ 1 ≤ c.dw64 ∧ 1 ≤ c.dh64) ∧ 1 ≤ c.paletteSize ∧
    (1 ≤ c.searchWindowMax ∧ c.searchWindowMax ≤ Mode.extended16.maxValue) ∧
    c.font.length = Const.fontBytes ∧ tableOk c.table = true := by
  simp only [Config.valid, Bool.and_eq_true, decide_eq_true_eq]
  tauto

theorem State.display_pos (s : State) (valid : s.cfg.valid = true) : 0 < s.dw ∧ 0 < s.dh := by
  obtain ⟨⟨w16, h16, w64, h64⟩, -⟩ := (Config.valid_iff s.cfg).1 valid
  unfold State.dw State.dh
  cases s.mode
  · exact ⟨Nat.succ_pos 63, Nat.succ_pos 31⟩
  · exact ⟨w16, h16⟩
  · exact ⟨w64, h64⟩

/-- The framebuffer lists entries of the physical buffer, rising. -/
def State.frameCanonical (s : State) : Prop := Pixels.wf s.cfg.physPixels s.fb = true

theorem frameCanonical_drawDots (valid : s.cfg.valid = true) (h : s.frameCanonical) (dots : List Dot) :
    (s.drawDots dots).frameCanonical :=
  have ⟨w, h'⟩ := s.display_pos valid
  s.wf_plot (Config.pixels_le_phys s.cfg s.mode) w h' h dots

theorem exec_keeps_frame (valid : s.cfg.valid = true) (h : s.frameCanonical) (run : exec i s = .next t) :
    t.frameCanonical := by
  have ends := ends_of_exec run
  by_cases written : .fb ∈ i.op.writes
  · have draw := frameCanonical_drawDots valid h
    obtain rfl | ⟨x, y, n, rfl⟩ | ⟨x, y, rfl⟩ | ⟨x, y, rfl⟩ | ⟨x, y, rfl⟩ | ⟨x, y, rfl⟩ :=
      isDisplay_cases (display_of_writes (.inl written)) <;> cases run
    · exact Pixels.wf_filter _ h
    · exact s.checkSpan_prop (draw _) fun _ => h
    · exact s.checkSpan_prop (draw _) fun _ => h
    · exact s.checkSpan_prop (draw _) fun _ => h
    · exact draw _
    · exact draw _
  · have cfg : t.cfg = s.cfg := ends.same (p := .cfg) (host_not_written i.op .cfg (by decide)) (by decide)
    have fb : t.fb = s.fb := ends.same (p := .fb) written (by decide)
    rw [State.frameCanonical, cfg, fb]
    exact h

/-! ## The registers -/

theorem exec_keeps_regsFit (h : s.regsFit) (run : exec i s = .next t) : t.regsFit := by
  intro j
  have ends := ends_of_exec run
  rw [ends.mode]
  rcases ends.regs j with same | ⟨-, v, written⟩
  · rw [same]
    exact h j
  · rw [written, toNat_ofNat_regBits]
    exact Nat.mod_lt _ (Nat.two_pow_pos _)

end Sys2Proof.Machine
end

section
/-!
PROOF. The invariant (spec/10_state.md, R43): it holds after reset, and every step and every operation of the
surrounding software keeps it (spec/00_scope.md, R8).
-/

namespace Sys2Proof.Machine

variable {s t : State} {i : Instr}

/-! ## Steps -/

theorem State.Inv.advance (inv : s.Inv) : s.advance.Inv := { inv with }

theorem State.Inv.raise (inv : s.Inv) (e : ErrorCond) : (s.raise e).Inv := { inv with }

theorem exec_keeps_inv (inv : s.Inv) (run : exec i s = .next t) : t.Inv := by
  obtain ⟨mode, -, -, frames, palette, eb, cfg⟩ := noInstructionTouchesHostState i s t run
  exact {
    config := cfg ▸ inv.config
    memory := exec_keeps_memory inv.memory run
    regs := exec_keeps_regsFit inv.regs run
    stack := exec_keeps_sp inv.stack run
    frame := exec_keeps_frame inv.config inv.frame run
    effect := by rw [cfg, eb]; exact inv.effect
    frames := frames ▸ inv.frames
    palette := by rw [cfg, palette]; exact inv.palette }

/-- Settles O16: the fetch phase and every report keep the invariant, and so does every instruction. -/
theorem stepKeepsInvariant : Obligations.StepKeepsInvariant := by
  intro s t inv run
  rcases step_cases s with ⟨-, e, eq⟩ | ⟨-, ⟨e, eq⟩ | ⟨i, eq⟩⟩ <;> rw [run] at eq
  · cases eq
    exact inv.raise e
  · cases eq
    exact inv.advance.raise e
  · exact exec_keeps_inv inv.advance eq.symm

/-! ## Reset -/

theorem regsFit_replicate_zero {k : State} (h : k.regs = Vector.replicate Const.physRegs 0) : k.regsFit := by
  intro j
  simp [h]

theorem inv_resetWith {c : Config} (valid : c.valid = true) : (State.resetWith c).Inv where
  config := valid
  memory := rfl
  regs := regsFit_replicate_zero rfl
  stack := Nat.zero_le _
  frame := rfl
  effect := rfl
  frames := Nat.succ_pos 9
  palette := ((Config.valid_iff c).1 valid).2.1

/-- The rows of R80 can be read and written back, and no two overlap. -/
theorem tableR80_ok : tableOk tableR80 = true := by decide +kernel

theorem defaults_valid : Config.defaults.valid = true :=
  (Config.valid_iff _).2 ⟨by decide, by decide, by decide, rfl, tableR80_ok⟩

/-- Settles O15: each reset value meets its bound, and the defaults meet R7. -/
theorem invariantHoldsAtReset : Obligations.InvariantHoldsAtReset :=
  ⟨fun _ => inv_resetWith, inv_resetWith defaults_valid⟩

/-! ## The operations of the surrounding software -/

theorem Pixels.wf_nil (n : Nat) : Pixels.wf n [] = true := rfl

/-- The window of one canonical buffer before the rest of another is canonical. -/
theorem Pixels.wf_inside_append_outside {n k : Nat} {p q : Pixels} (hp : Pixels.wf n p = true)
    (hq : Pixels.wf n q = true) : Pixels.wf n (p.inside k ++ q.outside k) = true := by
  obtain ⟨sortedP, boundP⟩ := (Pixels.wf_iff n _).1 (Pixels.wf_filter (fun j => decide (j < k)) hp)
  obtain ⟨sortedQ, boundQ⟩ := (Pixels.wf_iff n _).1 (Pixels.wf_filter (fun j => decide (k ≤ j)) hq)
  have apart : ∀ a ∈ p.inside k, ∀ b ∈ q.outside k, a < b := by
    intro a ha b hb
    simp only [Pixels.inside, Pixels.outside, List.mem_filter, decide_eq_true_eq] at ha hb
    omega
  exact (Pixels.wf_iff n _).2 ⟨List.pairwise_append.2 ⟨sortedP, sortedQ, apart⟩, fun j hj =>
    (List.mem_append.1 hj).elim (boundP j) (boundQ j)⟩

theorem State.Inv.copyToEffect (inv : s.Inv) : s.copyToEffect.Inv :=
  { inv with effect := Pixels.wf_inside_append_outside inv.frame inv.effect }

theorem State.Inv.cycleFrame (inv : s.Inv) : s.cycleFrame.Inv := by
  have pos : 0 < s.cfg.paletteSize := ((Config.valid_iff s.cfg).1 inv.config).2.1
  have below := inv.frames
  unfold State.cycleFrame
  split
  · exact { inv with frames := Nat.succ_pos 9, palette := Nat.mod_lt _ pos }
  · exact { inv with frames := by simp; omega }

theorem State.Inv.processGraphicsEffect (inv : s.Inv) : s.processGraphicsEffect.Inv := by
  unfold State.processGraphicsEffect
  split
  · exact inv.copyToEffect
  · exact inv.copyToEffect.cycleFrame

theorem State.Inv.writeBytes (inv : s.Inv) {a : Nat} {bs : List Byte}
    (fits : a + bs.length ≤ Const.physMem) : (s.writeBytes a bs).Inv where
  config := by simpa using inv.config
  memory := s.wf_writeBytes a bs fits inv.memory
  regs j := by simpa using inv.regs j
  stack := by simpa using inv.stack
  frame := by simpa using inv.frame
  effect := by simpa using inv.effect
  frames := by simpa using inv.frames
  palette := by simpa using inv.palette

theorem State.Inv.loadProgram (inv : s.Inv) (bytes : List Byte) : (s.loadProgram bytes).Inv := by
  unfold State.loadProgram
  split
  · have room : Const.origin ≤ s.mode.memSize := by cases s.mode <;> decide
    have phys := memSize_le s.mode
    exact { inv.writeBytes (show Const.origin + bytes.length ≤ Const.physMem by omega) with }
  · exact inv.raise _

theorem regsFit_maskRegs (r : Vector Cell64 Const.physRegs) (mode : t.regs = maskRegs t.mode r) :
    t.regsFit := by
  intro j
  simp only [mode, maskRegs, Vector.getElem_map, toNat_ofNat_regBits]
  exact Nat.mod_lt _ (Nat.two_pow_pos _)

theorem State.Inv.setMode (inv : s.Inv) (m : Mode) : (s.setMode m).Inv := by
  unfold State.setMode
  split
  · exact inv
  · exact { inv with
      regs := regsFit_maskRegs s.regs rfl
      frame := Pixels.wf_nil _
      effect := Pixels.wf_nil _ }

theorem perform_keeps_inv {o : Operation} (inv : s.Inv) (run : perform o s = .next t) : t.Inv := by
  cases o with
  | step => exact stepKeepsInvariant s t inv run
  | tickTimers => cases run; exact { inv with }
  | processGraphicsEffect => cases run; exact inv.processGraphicsEffect
  | setKey k pressed => cases run; exact { inv with }
  | ackRedraw => cases run; exact { inv with }
  | setEffect e => cases run; exact { inv with }
  | reset => cases run; exact { inv_resetWith inv.config with }
  | loadProgram bytes => cases run; exact inv.loadProgram bytes
  | setMode m => cases run; exact inv.setMode m

/-! ## Interleavings -/

theorem performAll_cons (o : Operation) (os : List Operation) (answers : perform o s = .next t) :
    performAll (o :: os) s = performAll os t := by
  rw [performAll, answers]

/-- Settles O17: by induction on the list, each operation keeping the invariant. -/
theorem everyInterleavingKeepsInvariant : Obligations.EveryInterleavingKeepsInvariant := by
  intro os
  induction os with
  | nil =>
    intro s t inv run
    cases run
    exact inv
  | cons o os ih =>
    intro s u inv run
    cases answer : perform o s with
    | next t =>
      rw [performAll_cons o os answer] at run
      exact ih t u (perform_keeps_inv inv answer) run
    | fault r => cases r
    | refused r => simp [performAll, answer] at run

end Sys2Proof.Machine
end

section
/-!
PROOF. The fault log and the configuration along every interleaving (spec/60_exceptions.md, R184;
spec/10_state.md, R45).
-/

namespace Sys2Proof.Machine

variable {s t u : State} {i : Instr}

/-- From `s` to `t` no entry leaves the fault log and the configuration stays. -/
def Extends (s t : State) : Prop := s.faultLog <:+ t.faultLog ∧ t.cfg = s.cfg

theorem Extends.trans (h : Extends s t) (k : Extends t u) : Extends s u :=
  ⟨h.1.trans k.1, k.2.trans h.2⟩

theorem extends_of_log_eq (log : t.faultLog = s.faultLog) (cfg : t.cfg = s.cfg) : Extends s t :=
  ⟨log ▸ List.suffix_refl _, cfg⟩

theorem extends_raise (s : State) (e : ErrorCond) : Extends s (s.raise e) :=
  ⟨List.suffix_cons e s.faultLog, rfl⟩

theorem exec_extends (run : exec i s = .next t) : Extends s t := by
  rcases ends_of_exec run with ⟨e, rfl⟩ | touched
  · exact extends_raise s e
  · have report : Part.same s t .report := touched.parts .report (host_not_written i.op .report (by decide))
    exact extends_of_log_eq report.2 (touched.parts .cfg (host_not_written i.op .cfg (by decide)))

theorem step_extends (run : step s = .next t) : Extends s t := by
  rcases step_cases s with ⟨-, e, eq⟩ | ⟨-, ⟨e, eq⟩ | ⟨i, eq⟩⟩ <;> rw [run] at eq
  · cases eq
    exact extends_raise s e
  · cases eq
    exact extends_raise s.advance e
  · exact exec_extends (s := s.advance) eq.symm

theorem processGraphicsEffect_extends (s : State) : Extends s s.processGraphicsEffect := by
  unfold State.processGraphicsEffect State.cycleFrame
  split
  · exact extends_of_log_eq rfl rfl
  · split <;> exact extends_of_log_eq rfl rfl

theorem loadProgram_extends (s : State) (bytes : List Byte) : Extends s (s.loadProgram bytes) :=
  s.guarded_prop (extends_of_log_eq (s.writeBytes_faultLog _ _) (s.writeBytes_cfg _ _)) (extends_raise s)

theorem setMode_extends (s : State) (m : Mode) : Extends s (s.setMode m) := by
  unfold State.setMode
  split <;> exact extends_of_log_eq rfl rfl

theorem perform_extends (o : Operation) (s : State) : ∃ t, perform o s = .next t ∧ Extends s t := by
  cases o with
  | step =>
    obtain ⟨t, run⟩ := everyStepAnswersNextState s
    exact ⟨t, run, step_extends run⟩
  | tickTimers => exact ⟨_, rfl, extends_of_log_eq rfl rfl⟩
  | processGraphicsEffect => exact ⟨_, rfl, processGraphicsEffect_extends s⟩
  | setKey k pressed => exact ⟨_, rfl, extends_of_log_eq rfl rfl⟩
  | ackRedraw => exact ⟨_, rfl, extends_of_log_eq rfl rfl⟩
  | setEffect e => exact ⟨_, rfl, extends_of_log_eq rfl rfl⟩
  | reset => exact ⟨_, rfl, extends_of_log_eq rfl rfl⟩
  | loadProgram bytes => exact ⟨_, rfl, loadProgram_extends s bytes⟩
  | setMode m => exact ⟨_, rfl, setMode_extends s m⟩

/-- Settles O18: by induction on the list, each operation answering and extending the log. -/
theorem everyInterleavingKeepsTheFaultLog : Obligations.EveryInterleavingKeepsTheFaultLog := by
  intro os
  induction os with
  | nil => exact fun s => ⟨s, rfl, List.suffix_refl _, rfl⟩
  | cons o os ih =>
    intro s
    obtain ⟨t, answers, first⟩ := perform_extends o s
    obtain ⟨u, run, rest⟩ := ih t
    exact ⟨u, (performAll_cons o os answers).trans run, first.trans rest⟩

end Sys2Proof.Machine
end

section
/-!
PROOF. Decoding over any table whose rows do not overlap, and back (spec/30_encoding.md, R72, R73, R80): the
one row of an opcode, the word of an instruction in a row.
-/

namespace Sys2Proof

variable {t : List Row} {r q : Row} {m : Mode} {w : Opcode} {i : Instr}

theorem tableOk_iff : tableOk t = true ↔
    (∀ r ∈ t, r.wf = true) ∧ t.Pairwise fun r q => r.overlaps q = false := by
  simp [tableOk]

/-- A list whose elements exclude one another in pairs has at most one element with a property. -/
theorem filter_eq_singleton {α : Type} {R : α → α → Prop} {p : α → Bool} {l : List α} {a : α}
    (apart : l.Pairwise R) (excl : ∀ b c, p b = true → p c = true → ¬ R b c) (mem : a ∈ l)
    (ha : p a = true) : l.filter p = [a] := by
  have mem' : a ∈ l.filter p := List.mem_filter.2 ⟨mem, ha⟩
  have apart' : (l.filter p).Pairwise R := apart.filter p
  have holds : ∀ b ∈ l.filter p, p b = true := fun b hb => (List.mem_filter.1 hb).2
  match h : l.filter p with
  | [] => simp [h] at mem'
  | [b] => simpa [h, eq_comm] using mem'
  | b :: c :: rest =>
    rw [h] at apart' holds
    have bc : R b c := (List.pairwise_cons.1 apart').1 c (by simp)
    exact absurd bc (excl b c (holds b (by simp)) (holds c (by simp)))

/-- An opcode selects no second row. -/
theorem filter_selects_eq_singleton (ok : tableOk t = true) (mem : r ∈ t) (sel : r.selects m w = true) :
    (t.filter fun q => q.selects m w) = [r] := by
  refine filter_eq_singleton (tableOk_iff.1 ok).2 (fun b c hb hc apart => ?_) mem sel
  rw [Row.overlaps_of_accepts (Row.accepts_of_selects hb) (Row.accepts_of_selects hc)] at apart
  cases apart

/-- An opcode decodes to the operation of the row it selects. -/
theorem decodeWord_of_selects (ok : tableOk t = true) (mem : r ∈ t) (sel : r.selects m w = true) :
    decodeWord t m w = some (r.op.instr w) := by
  rw [decodeWord, ← List.head?_filter, filter_selects_eq_singleton ok mem sel]
  rfl

theorem selects_of_decodeWord (decoded : decodeWord t m w = some i) :
    ∃ r ∈ t, r.selects m w = true ∧ i = r.op.instr w := by
  obtain ⟨r, found, rfl⟩ := Option.map_eq_some_iff.1 decoded
  have sel : r.selects m w = true := List.find?_some (p := fun r : Row => r.selects m w) found
  exact ⟨r, List.mem_of_find?_eq_some found, sel, rfl⟩

theorem spells_of_encode (encoded : encode t m i = some w) :
    ∃ r ∈ t, r.spells m i = true ∧ w = r.word i := by
  obtain ⟨r, found, rfl⟩ := Option.map_eq_some_iff.1 encoded
  have spells : r.spells m i = true := List.find?_some (p := fun r : Row => r.spells m i) found
  exact ⟨r, List.mem_of_find?_eq_some found, spells, rfl⟩

theorem wellFormed_iff : i.wellFormed t m = true ↔ ∃ r ∈ t, r.spells m i = true := List.any_eq_true

theorem encode_of_wellFormed (wf : i.wellFormed t m = true) : ∃ w, encode t m i = some w := by
  obtain ⟨r, mem, spells⟩ := wellFormed_iff.1 wf
  have some : (t.find? fun r => r.spells m i).isSome = true := List.find?_isSome.2 ⟨r, mem, spells⟩
  obtain ⟨q, found⟩ := Option.isSome_iff_exists.1 some
  exact ⟨q.word i, by rw [encode, found]; rfl⟩

/-- The word that a row gives an instruction it spells selects the row. -/
theorem Row.selects_word (wf : r.wf = true) (spells : r.spells m i = true) :
    r.selects m (r.word i) = true := by
  obtain ⟨op, gate, least⟩ := (r.spells_iff m i).1 spells
  exact (r.selects_iff m _).2 ⟨r.word_and_mask wf op, gate, least⟩

theorem decodeWord_of_encode (ok : tableOk t = true) (encoded : encode t m i = some w) :
    decodeWord t m w = some i := by
  obtain ⟨r, mem, spells, rfl⟩ := spells_of_encode encoded
  have wf := (tableOk_iff.1 ok).1 r mem
  rw [decodeWord_of_selects ok mem (Row.selects_word wf spells),
    Row.instr_word wf ((r.spells_iff m i).1 spells).1]

theorem decode_wordBytes (w : Opcode) (rest : List Byte) (decoded : decodeWord t m w = some i) :
    decode t m (wordBytes w ++ rest) = .ok (i, rest) := by
  simp [wordBytes, decode, wordOfBytes_high_low, decoded]

/-- Settles O2: the word of a row selects that row and no other, and holds the operands. -/
theorem decodeOfEncodeIsTheInstruction : Obligations.DecodeOfEncodeIsTheInstruction := by
  intro t m i rest ok wf
  obtain ⟨w, encoded⟩ := encode_of_wellFormed wf
  exact ⟨w, encoded, decode_wordBytes w rest (decodeWord_of_encode ok encoded)⟩

/-! ## Back from a decoded instruction -/

/-- The word of the instruction that a row reads from an opcode: the opcode without the bits that are neither
fixed nor operands. -/
theorem Row.word_instr (sel : r.selects m w = true) :
    r.word (r.op.instr w) = w &&& (r.mask ||| r.op.operandBits) := by
  obtain ⟨fixed, -, -⟩ := (r.selects_iff m w).1 sel
  rw [Row.word, Op.operands_instr, ← fixed, BitVec.and_or_distrib_left]

/-- A row spells the instruction that it reads from an opcode: where `nnn` is constrained, all of it is
operands. -/
theorem Row.spells_instr (wf : r.wf = true) (sel : r.selects m w = true) :
    r.spells m (r.op.instr w) = true := by
  obtain ⟨fixed, gate, least⟩ := (r.selects_iff m w).1 sel
  refine (r.spells_iff m _).2 ⟨(Op.op_instr _ _).symm, gate, ?_⟩
  rcases ((r.wf_iff).1 wf).2.2 with zero | all
  · exact zero.trans_le (Nat.zero_le _)
  · have kept : Opcode.nnn (w &&& (r.mask ||| r.op.operandBits)) = w.nnn := by
      rw [Opcode.nnn_and, Opcode.nnn_or, all, show Opcode.nnn 0x0FFF#16 = BitVec.allOnes 12 by decide,
        BitVec.or_allOnes, BitVec.and_allOnes]
    rw [Row.word_instr sel, kept]
    exact least

theorem wellFormed_of_decodeWord (ok : tableOk t = true) (decoded : decodeWord t m w = some i) :
    i.wellFormed t m = true := by
  obtain ⟨r, mem, sel, rfl⟩ := selects_of_decodeWord decoded
  exact wellFormed_iff.2 ⟨r, mem, Row.spells_instr ((tableOk_iff.1 ok).1 r mem) sel⟩

/-- Each operation has one row in R80. -/
theorem tableR80_row_of_op : ∀ r ∈ tableR80, ∀ q ∈ tableR80, q.op = r.op → q = r := by
  decide +kernel

/-- The bits of the opcode that an operation of R80 fixes or reads: all but the field `y` of the shifts. -/
def Op.usedBits : Op → Opcode
  | .shr | .shl => 0xFF0F#16
  | _ => 0xFFFF#16

theorem tableR80_usedBits : ∀ r ∈ tableR80, r.mask ||| r.op.operandBits = r.op.usedBits := by
  decide +kernel

theorem encode_of_decodeWord_tableR80 (decoded : decodeWord tableR80 m w = some i) :
    encode tableR80 m i = some (w &&& i.op.usedBits) := by
  obtain ⟨r, mem, sel, rfl⟩ := selects_of_decodeWord decoded
  obtain ⟨v, encoded⟩ := encode_of_wellFormed (wellFormed_of_decodeWord Machine.tableR80_ok decoded)
  obtain ⟨q, memq, spells, rfl⟩ := spells_of_encode encoded
  have same : q.op = r.op := ((q.spells_iff m _).1 spells).1.trans (Op.op_instr _ _)
  rw [encoded, tableR80_row_of_op r mem q memq same, Row.word_instr sel, tableR80_usedBits r mem,
    Op.op_instr]

/-- Settles O3: the row that an opcode selects spells its instruction, in R80 no other row does, and its fixed
bits and operands are the whole opcode but for the ignored field of the shifts. -/
theorem encodeOfDecodeIsTheWord : Obligations.EncodeOfDecodeIsTheWord := by
  refine ⟨fun t m w i => wellFormed_of_decodeWord, fun m w i decoded => ?_⟩
  rw [encode_of_decodeWord_tableR80 decoded]
  have all : w &&& 0xFFFF#16 = w := BitVec.and_allOnes
  cases i <;> simp only [Instr.op, Op.usedBits, all]

end Sys2Proof
end

section
/-!
PROOF. The decode table of R80 and the decode function of R81 (spec/30_encoding.md): they agree on every
opcode in every mode, family by family, and leave the opcodes of R82 unknown.
-/

namespace Sys2Proof

variable {m : Mode} {w : Opcode} {fam : BitVec 4}

/-- Decoding over R80 reads the rows of the opcode's family only. -/
theorem decodeWord_tableR80_family {rows : List Row} (hf : w.fam = fam)
    (family : (tableR80.filter fun r => r.value.fam = fam) = rows) :
    decodeWord tableR80 m w = decodeWord rows m w := by
  rw [← decodeWord_filter_family tableR80_fixes_family, hf, family]

/-! ## Families of one row -/

theorem decodeWord_tableR80_whole {o : Op} (hf : w.fam = fam)
    (only : (tableR80.filter fun r => r.value.fam = fam) = [⟨0xF000#16, wordA fam 0#12, .all, 0, o⟩]) :
    decodeWord tableR80 m w = some (o.instr w) := by
  have word : w = wordA fam w.nnn := by rw [← hf, wordA_of_fields]
  rw [word]
  exact decodeWord_tableR80_of_family w.nnn only

/-! ## Families that dispatch on the last nibble -/

/-- The first entry of a list with distinct keys that has a key and a property is the entry of that key, if it
has the property. -/
theorem map_find?_key {α β γ : Type} [DecidableEq α] (a : α) (p : β → Bool) (f : β → γ) {l : List (α × β)}
    (distinct : (l.map Prod.fst).Nodup) :
    ((l.find? fun e => decide (a = e.1) && p e.2).map fun e => f e.2) =
      (l.lookup a).bind fun b => if p b then some (f b) else none := by
  induction l with
  | nil => rfl
  | cons e l ih =>
    obtain ⟨k, b⟩ := e
    obtain ⟨fresh, distinct'⟩ := List.nodup_cons.1 distinct
    by_cases same : a = k
    · subst same
      cases holds : p b
      · have none : (l.find? fun e => decide (a = e.1) && p e.2) = none :=
          List.find?_eq_none.2 fun e he => by
            have other : a ≠ e.1 := fun h => fresh (List.mem_map.2 ⟨e, he, h.symm⟩)
            simp [other]
        simp [holds, none]
      · simp [holds]
    · simp [List.lookup_cons, beq_false_of_ne same, same, ih distinct']

/-- The rows of a family that dispatches on `n`. -/
def nibbleRows (fam : BitVec 4) (l : List (BitVec 4 × Gate × Op)) : List Row :=
  l.map fun e => ⟨0xF00F#16, wordRR fam 0#4 0#4 e.1, e.2.1, 0, e.2.2⟩

theorem nibbleRow_selects (hf : w.fam = fam) (n : BitVec 4) (g : Gate) (o : Op) :
    (Row.mk 0xF00F#16 (wordRR fam 0#4 0#4 n) g 0 o).selects m w = (decide (w.n = n) && g.admits m) := by
  have fixed : w &&& 0xF00F#16 = wordRR fam 0#4 0#4 w.n := by
    conv_lhs => rw [← wordRR_of_fields w, hf]
    show wordRR fam w.x w.y w.n &&& wordRR 15#4 0#4 0#4 15#4 = _
    rw [wordRR_and, allOnes4, allOnes4, BitVec.and_zero, BitVec.and_zero]
  have same : wordRR fam 0#4 0#4 w.n = wordRR fam 0#4 0#4 n ↔ w.n = n :=
    ⟨fun e => by simpa using congrArg Opcode.n e, fun e => by rw [e]⟩
  simp [Row.selects, fixed, same]

theorem decodeWord_nibbleRows (hf : w.fam = fam) {l : List (BitVec 4 × Gate × Op)}
    (distinct : (l.map Prod.fst).Nodup) : decodeWord (nibbleRows fam l) m w =
      (l.lookup w.n).bind fun e => whenMode (e.1.admits m) (e.2.instr w) := by
  simp only [decodeWord, nibbleRows, List.find?_map, Option.map_map, Function.comp_def, nibbleRow_selects hf]
  exact map_find?_key w.n (fun e => e.1.admits m) (fun e => e.2.instr w) distinct

theorem decodeWord_tableR80_fam5 (hf : w.fam = 5#4) : decodeWord tableR80 m w = decodeFam5 m w := by
  have family : (tableR80.filter fun r => r.value.fam = 5#4) = nibbleRows 5#4 [(0#4, .all, .seReg),
      (1#4, .ext, .vadd), (2#4, .ext, .dot), (3#4, .ext, .bcopy), (4#4, .ext, .bsrch),
      (5#4, .ext, .rndb)] := by decide
  rw [decodeWord_tableR80_family hf family, decodeWord_nibbleRows hf (by decide)]
  unfold decodeFam5
  split
  case h_7 => rw [List.lookup_eq_none_iff.2 (by simp_all)]; rfl
  all_goals
    next hn =>
      rw [hn]
      rfl

theorem decodeWord_tableR80_fam8 (hf : w.fam = 8#4) : decodeWord tableR80 m w = decodeFam8 m w := by
  have family : (tableR80.filter fun r => r.value.fam = 8#4) = nibbleRows 8#4 [(0#4, .all, .ldReg),
      (1#4, .all, .orReg), (2#4, .all, .andReg), (3#4, .all, .xorReg), (4#4, .all, .addReg), (5#4, .all, .sub),
      (6#4, .all, .shr), (7#4, .all, .subn), (8#4, .ext, .mul), (9#4, .ext, .div), (10#4, .ext, .ror),
      (11#4, .ext, .rol), (12#4, .ext, .popcnt), (14#4, .all, .shl)] := by decide
  rw [decodeWord_tableR80_family hf family, decodeWord_nibbleRows hf (by decide)]
  unfold decodeFam8
  split
  case h_15 => rw [List.lookup_eq_none_iff.2 (by simp_all)]; rfl
  all_goals
    next hn =>
      rw [hn]
      rfl

theorem decodeWord_tableR80_fam9 (hf : w.fam = 9#4) : decodeWord tableR80 m w = decodeFam9 m w := by
  have family : (tableR80.filter fun r => r.value.fam = 9#4) = nibbleRows 9#4 [(0#4, .all, .sneReg),
      (1#4, .ext, .drw16), (2#4, .x64, .drw32), (3#4, .ext, .hline), (4#4, .ext, .vline)] := by decide
  rw [decodeWord_tableR80_family hf family, decodeWord_nibbleRows hf (by decide)]
  unfold decodeFam9
  split
  case h_6 => rw [List.lookup_eq_none_iff.2 (by simp_all)]; rfl
  all_goals
    next hn =>
      rw [hn]
      rfl

/-! ## Families that dispatch on the low byte -/

/-- The rows of a family that dispatches on `kk`. -/
def byteRows (fam : BitVec 4) (l : List (BitVec 8 × Gate × Op)) : List Row :=
  l.map fun e => ⟨0xF0FF#16, wordRI fam 0#4 e.1, e.2.1, 0, e.2.2⟩

theorem byteRow_selects (hf : w.fam = fam) (kk : BitVec 8) (g : Gate) (o : Op) :
    (Row.mk 0xF0FF#16 (wordRI fam 0#4 kk) g 0 o).selects m w = (decide (w.kk = kk) && g.admits m) := by
  have fixed : w &&& 0xF0FF#16 = wordRI fam 0#4 w.kk := by
    conv_lhs => rw [← wordRI_of_fields w, hf]
    show wordRI fam w.x w.kk &&& wordRI 15#4 0#4 255#8 = _
    rw [wordRI_and, allOnes4, allOnes8, BitVec.and_zero]
  have same : wordRI fam 0#4 w.kk = wordRI fam 0#4 kk ↔ w.kk = kk :=
    ⟨fun e => by simpa using congrArg Opcode.kk e, fun e => by rw [e]⟩
  simp [Row.selects, fixed, same]

theorem decodeWord_byteRows (hf : w.fam = fam) {l : List (BitVec 8 × Gate × Op)}
    (distinct : (l.map Prod.fst).Nodup) : decodeWord (byteRows fam l) m w =
      (l.lookup w.kk).bind fun e => whenMode (e.1.admits m) (e.2.instr w) := by
  simp only [decodeWord, byteRows, List.find?_map, Option.map_map, Function.comp_def, byteRow_selects hf]
  exact map_find?_key w.kk (fun e => e.1.admits m) (fun e => e.2.instr w) distinct

theorem decodeWord_tableR80_famE (hf : w.fam = 14#4) : decodeWord tableR80 m w = decodeFamE w := by
  have family : (tableR80.filter fun r => r.value.fam = 14#4) =
      byteRows 14#4 [(0x9E#8, .all, .skp), (0xA1#8, .all, .sknp)] := by decide
  rw [decodeWord_tableR80_family hf family, decodeWord_byteRows hf (by decide)]
  unfold decodeFamE
  split
  case h_3 => rw [List.lookup_eq_none_iff.2 (by simp_all)]; rfl
  all_goals
    next hn =>
      rw [hn]
      rfl

theorem decodeWord_tableR80_famF (hf : w.fam = 15#4) : decodeWord tableR80 m w = decodeFamF m w := by
  have family : (tableR80.filter fun r => r.value.fam = 15#4) = byteRows 15#4 [(0x01#8, .ext, .rndw),
      (0x07#8, .all, .ldVxDt), (0x0A#8, .all, .ldVxK), (0x15#8, .all, .ldDtVx), (0x18#8, .all, .ldStVx),
      (0x1E#8, .all, .addI), (0x29#8, .all, .ldF), (0x33#8, .all, .ldB), (0x55#8, .all, .ldMemVx),
      (0x65#8, .all, .ldVxMem)] := by decide
  rw [decodeWord_tableR80_family hf family, decodeWord_byteRows hf (by decide)]
  unfold decodeFamF
  split
  case h_11 => rw [List.lookup_eq_none_iff.2 (by simp_all)]; rfl
  all_goals
    next hn =>
      rw [hn]
      rfl

/-! ## Family 0 -/

/-- `nnn >= 0x100` says that its first digit, the field `x`, is not 0. -/
theorem Opcode.least_le_nnn (w : Opcode) : 0x100 ≤ w.nnn.toNat ↔ w.x ≠ 0#4 := by
  have digit : w.x.toNat = w.nnn.toNat / 256 := by
    simp only [Opcode.x, Opcode.nnn, BitVec.extractLsb'_toNat, Nat.shiftRight_eq_div_pow]
    omega
  rw [Ne, ← BitVec.toNat_inj, digit]
  simp

theorem exactRow_selects (v : Opcode) (g : Gate) (o : Op) :
    (Row.mk 0xFFFF#16 v g 0 o).selects m w = (decide (w = v) && g.admits m) := by
  have all : w &&& 0xFFFF#16 = w := BitVec.and_allOnes
  simp [Row.selects, all]

theorem callpRow_selects (hf : w.fam = 0#4) :
    (Row.mk 0xF000#16 0x0000#16 .ext 0x100 .callp).selects m w = (m.ext && decide (w.x ≠ 0#4)) := by
  have fixed : w &&& 0xF000#16 = 0x0000#16 := by
    conv_lhs => rw [← wordA_of_fields w, hf]
    show wordA 0#4 w.nnn &&& wordA 15#4 0#12 = _
    rw [wordA_and, allOnes4, BitVec.and_zero]
    rfl
  simp only [Row.selects, fixed, Gate.admits, Opcode.least_le_nnn, decide_true, Bool.true_and]

theorem decodeWord_tableR80_fam0 (hf : w.fam = 0#4) : decodeWord tableR80 m w = decodeFam0 m w := by
  have family : (tableR80.filter fun r => r.value.fam = 0#4) = [⟨0xFFFF#16, 0x00E0#16, .all, 0, .cls⟩,
      ⟨0xFFFF#16, 0x00EE#16, .all, 0, .ret⟩, ⟨0xFFFF#16, 0x00EF#16, .ext, 0, .retv⟩,
      ⟨0xF000#16, 0x0000#16, .ext, 0x100, .callp⟩] := by decide
  rw [decodeWord_tableR80_family hf family]
  simp only [decodeWord, List.find?_cons, List.find?_nil, exactRow_selects, callpRow_selects hf]
  unfold decodeFam0
  by_cases cls : w = 0x00E0#16
  · simp [cls, Gate.admits, Op.instr]
  · by_cases ret : w = 0x00EE#16
    · simp [ret, Gate.admits, Op.instr]
    · by_cases retv : w = 0x00EF#16
      · cases m <;> simp [retv, Gate.admits, Mode.ext, whenMode, Op.instr]
      · by_cases low : w.x = 0#4
        · simp [cls, ret, retv, low]
        · cases m <;> simp [cls, ret, retv, low, Mode.ext, whenMode, Op.instr]

/-! ## All families -/

/-- Decoding over the table of R80 is the decode function of R81. -/
theorem decodeWord_tableR80 (m : Mode) (w : Opcode) : decodeWord tableR80 m w = decodeCases m w := by
  unfold decodeCases
  split <;> rename_i hf
  · exact decodeWord_tableR80_fam0 hf
  · exact decodeWord_tableR80_whole (o := .jp) hf (by decide)
  · exact decodeWord_tableR80_whole (o := .call) hf (by decide)
  · exact decodeWord_tableR80_whole (o := .seImm) hf (by decide)
  · exact decodeWord_tableR80_whole (o := .sneImm) hf (by decide)
  · exact decodeWord_tableR80_fam5 hf
  · exact decodeWord_tableR80_whole (o := .ldImm) hf (by decide)
  · exact decodeWord_tableR80_whole (o := .addImm) hf (by decide)
  · exact decodeWord_tableR80_fam8 hf
  · exact decodeWord_tableR80_fam9 hf
  · exact decodeWord_tableR80_whole (o := .ldI) hf (by decide)
  · exact decodeWord_tableR80_whole (o := .jpV0) hf (by decide)
  · exact decodeWord_tableR80_whole (o := .rnd) hf (by decide)
  · exact decodeWord_tableR80_whole (o := .drw) hf (by decide)
  · exact decodeWord_tableR80_famE hf
  · have last : w.fam = 15#4 := by
      generalize w.fam = f at *
      revert f
      decide
    exact decodeWord_tableR80_famF last

/-- Settles O59: the rows of a table exclude one another, and R80 agrees with R81 family by family. -/
theorem decoderReadsTheOneRowOfTheTable : Obligations.DecoderReadsTheOneRowOfTheTable := by
  refine ⟨fun t m w r ok mem fixed gate least => ?_, fun t m w i decoded => ?_, Machine.tableR80_ok,
    decodeWord_tableR80⟩
  · have sel : r.selects m w = true := (r.selects_iff m w).2 ⟨fixed, gate, least⟩
    exact ⟨decodeWord_of_selects ok mem sel, filter_selects_eq_singleton ok mem sel⟩
  · obtain ⟨r, mem, sel, rfl⟩ := selects_of_decodeWord decoded
    obtain ⟨fixed, gate, least⟩ := (r.selects_iff m w).1 sel
    exact ⟨r, mem, fixed, gate, least, rfl⟩

/-! ## Unknown opcodes (R82) -/

theorem whenMode_eq_none {available : Bool} {i : Instr} :
    whenMode available i = none ↔ available = false := by
  cases available <;> simp [whenMode]

theorem ext_eq_false : m.ext = false ↔ m = .legacy8 := by
  cases m <;> simp [Mode.ext]

theorem decodeFam0_eq_none : decodeFam0 m w = none ↔ w ≠ 0x00E0#16 ∧ w ≠ 0x00EE#16 ∧
    (m ≠ .legacy8 → w ≠ 0x00EF#16 ∧ w.x = 0#4) := by
  unfold decodeFam0
  split_ifs with cls ret retv low
  · simp [cls]
  · simp [ret]
  · simp [retv, whenMode_eq_none, ext_eq_false]
  · simp [cls, ret, retv, low]
  · simp [cls, ret, retv, low, whenMode_eq_none, ext_eq_false]

theorem decodeFam5_eq_none : decodeFam5 m w = none ↔
    if m = .legacy8 then 1 ≤ w.n.toNat else 6 ≤ w.n.toNat := by
  unfold decodeFam5
  cases m <;> split <;> simp_all [whenMode, Mode.ext] <;> bv_omega

theorem decodeFam8_eq_none : decodeFam8 m w = none ↔ w.n.toNat = 13 ∨ w.n.toNat = 15 ∨
    (m = .legacy8 ∧ 8 ≤ w.n.toNat ∧ w.n.toNat ≤ 12) := by
  unfold decodeFam8
  cases m <;> split <;> simp_all [whenMode, Mode.ext] <;> bv_omega

theorem decodeFam9_legacy8_eq_none : decodeFam9 .legacy8 w = none ↔ 1 ≤ w.n.toNat := by
  unfold decodeFam9
  split <;> simp_all [whenMode, Mode.ext, Mode.x64]
  bv_omega

theorem decodeFam9_extended16_eq_none :
    decodeFam9 .extended16 w = none ↔ w.n.toNat = 2 ∨ 5 ≤ w.n.toNat := by
  unfold decodeFam9
  split <;> simp_all [whenMode, Mode.ext, Mode.x64]
  bv_omega

theorem decodeFam9_extended64_eq_none : decodeFam9 .extended64 w = none ↔ 5 ≤ w.n.toNat := by
  unfold decodeFam9
  split <;> simp_all [whenMode, Mode.ext, Mode.x64]
  bv_omega

theorem decodeFamE_eq_none : decodeFamE w = none ↔ w.kk ∉ [0x9E#8, 0xA1#8] := by
  unfold decodeFamE
  split <;> simp_all

theorem decodeFamF_eq_none : decodeFamF m w = none ↔
    w.kk ∉ [0x07#8, 0x0A#8, 0x15#8, 0x18#8, 0x1E#8, 0x29#8, 0x33#8, 0x55#8, 0x65#8] ∧
      (m ≠ .legacy8 → w.kk ≠ 0x01#8) := by
  unfold decodeFamF
  split <;> simp_all [whenMode_eq_none, ext_eq_false]

/-- Settles O4: over the decode function of R81, which is exhaustive in its families, each family leaves the
opcodes of its own line unknown. -/
theorem unknownOpcodesAreThoseOfTheTable : Obligations.UnknownOpcodesAreThoseOfTheTable := by
  intro m w
  rw [decodeWord_tableR80]
  unfold decodeCases
  split <;> rename_i hf
  · simpa [hf] using decodeFam0_eq_none
  · simp [hf]
  · simp [hf]
  · simp [hf]
  · simp [hf]
  · simpa [hf] using decodeFam5_eq_none
  · simp [hf]
  · simp [hf]
  · simpa [hf] using decodeFam8_eq_none
  · cases m
    · simpa [hf] using decodeFam9_legacy8_eq_none
    · simpa [hf] using decodeFam9_extended16_eq_none
    · simpa [hf] using decodeFam9_extended64_eq_none
  · simp [hf]
  · simp [hf]
  · simp [hf]
  · simp [hf]
  · simpa [hf] using decodeFamE_eq_none
  · have last : w.fam = 15#4 := by
      generalize w.fam = f at *
      revert f
      decide
    simpa [last] using decodeFamF_eq_none

/-- Settles O1: each word in its mode, by the decode function of R81. -/
theorem specWordsDecode : Obligations.SpecWordsDecode := by
  simp only [Obligations.SpecWordsDecode, decodeWord_tableR80]
  decide

end Sys2Proof
end

section
/-!
PROOF. No instruction but `VADD` and `DOT` on register 15 reads a register above 15 (spec/10_state.md, R26;
spec/42_extended_math.md, R127, R128): another value there is carried through every operation.
-/

namespace Sys2Proof.Machine

variable {s s' t t' : State} {i : Instr} {j : Fin Const.physRegs} {c : Cell64}

/-- Two states that differ in one register at most. -/
def Alike (j : Fin Const.physRegs) (s s' : State) : Prop := ∃ d, s' = s.poke j d

theorem alike_poke (s : State) (j : Fin Const.physRegs) (c : Cell64) : Alike j s (s.poke j c) := ⟨c, rfl⟩

/-! ## Operations on both states -/

theorem Alike.setReg (h : Alike j s s') (k : Fin Const.physRegs) (v : Nat) :
    Alike j (s.setReg k v) (s'.setReg k v) := by
  obtain ⟨c, rfl⟩ := h
  exact s.setReg_poke j c k v

theorem Alike.setFlag (h : Alike j s s') (v : Nat) : Alike j (s.setFlag v) (s'.setFlag v) := by
  have mode : s'.mode = s.mode := by obtain ⟨c, rfl⟩ := h; rfl
  rw [State.setFlag, State.setFlag, mode]
  exact h.setReg _ v

theorem Alike.setResultFlag (h : Alike j s s') (k : Fin Const.physRegs) (v f : Nat) :
    Alike j (s.setResultFlag k v f) (s'.setResultFlag k v f) := (h.setReg k v).setFlag f

theorem Alike.setPc (h : Alike j s s') (a : Addr) : Alike j (s.setPc a) (s'.setPc a) := by
  obtain ⟨c, rfl⟩ := h
  exact ⟨c, rfl⟩

theorem Alike.setIndex (h : Alike j s s') (a : Addr) : Alike j (s.setIndex a) (s'.setIndex a) := by
  obtain ⟨c, rfl⟩ := h
  exact ⟨c, rfl⟩

theorem Alike.setFb (h : Alike j s s') (p : Pixels) : Alike j (s.setFb p) (s'.setFb p) := by
  obtain ⟨c, rfl⟩ := h
  exact ⟨c, rfl⟩

theorem Alike.setRedraw (h : Alike j s s') (b : Bool) : Alike j (s.setRedraw b) (s'.setRedraw b) := by
  obtain ⟨c, rfl⟩ := h
  exact ⟨c, rfl⟩

theorem Alike.push (h : Alike j s s') (v : Cell64) : Alike j (s.push v) (s'.push v) := by
  obtain ⟨c, rfl⟩ := h
  exact ⟨c, rfl⟩

theorem Alike.drop (h : Alike j s s') : Alike j s.drop s'.drop := by
  obtain ⟨c, rfl⟩ := h
  exact ⟨c, rfl⟩

theorem Alike.drawn (h : Alike j s s') : Alike j s.drawn s'.drawn := by
  obtain ⟨c, rfl⟩ := h
  exact ⟨c, rfl⟩

theorem Alike.raise (h : Alike j s s') (e : ErrorCond) : Alike j (s.raise e) (s'.raise e) := by
  obtain ⟨c, rfl⟩ := h
  exact ⟨c, rfl⟩

theorem Alike.skipIf (h : Alike j s s') (b : Bool) : Alike j (s.skipIf b) (s'.skipIf b) := by
  obtain ⟨c, rfl⟩ := h
  cases b
  · exact ⟨c, rfl⟩
  · exact ⟨c, rfl⟩

theorem Alike.writeBytes (h : Alike j s s') (a : Nat) (bs : List Byte) :
    Alike j (s.writeBytes a bs) (s'.writeBytes a bs) := by
  induction bs generalizing s s' a with
  | nil => exact h
  | cons b bs ih =>
    obtain ⟨c, rfl⟩ := h
    exact ih ⟨c, rfl⟩ (a + 1)

theorem Alike.autoAdvance (h : Alike j s s') (len : Nat) :
    Alike j (s.autoAdvance len) (s'.autoAdvance len) := by
  have same : s'.mode = s.mode ∧ s'.index = s.index := by obtain ⟨c, rfl⟩ := h; exact ⟨rfl, rfl⟩
  rw [State.autoAdvance, State.autoAdvance, same.1, same.2]
  split
  · exact h.setIndex _
  · exact h

theorem Alike.checkSpan (h : Alike j s s') {a len : Nat} (rest : Alike j t t') :
    Alike j (s.checkSpan a len t) (s'.checkSpan a len t') := by
  have same : s'.spanOk a len = s.spanOk a len := by obtain ⟨c, rfl⟩ := h; rfl
  unfold State.checkSpan
  rw [same]
  split
  · exact rest
  · exact h.raise _

theorem Alike.popReg (h : Alike j s s') (k : Fin Const.physRegs) : Alike j (s.popReg k) (s'.popReg k) := by
  have top : s'.top = s.top := by obtain ⟨c, rfl⟩ := h; rfl
  rw [State.popReg, State.popReg, top]
  exact (h.setReg k _).drop

theorem Alike.popPc (h : Alike j s s') : Alike j s.popPc s'.popPc := by
  obtain ⟨c, rfl⟩ := h
  exact ⟨c, rfl⟩

theorem Alike.loadRegs (h : Alike j s s') (n : Nat) : Alike j (s.loadRegs t n) (s'.loadRegs t n) := by
  induction n with
  | zero => exact h
  | succ n ih => exact ih.setReg _ _

/-- The loads of a bulk transfer come from memory, which has no register in it. -/
theorem loadRegs_poke (n : Nat) : s.loadRegs (t.poke j c) n = s.loadRegs t n := by
  induction n with
  | zero => rfl
  | succ n ih =>
    rw [State.loadRegs, State.loadRegs, ih]
    rfl

theorem Alike.drawDots (h : Alike j s s') (dots : List Dot) :
    Alike j (s.drawDots dots) (s'.drawDots dots) := by
  have same : s'.plot dots = s.plot dots := by obtain ⟨c, rfl⟩ := h; rfl
  rw [State.drawDots, State.drawDots, same]
  exact ((h.setFb _).setFlag _).setRedraw true

/-! ## Reads of a poked state -/

theorem searchFrom_poke (a needle u n : Nat) :
    (s.poke j c).searchFrom a needle u n = s.searchFrom a needle u n := by
  induction n generalizing u with
  | zero => rfl
  | succ n ih =>
    rw [State.searchFrom, State.searchFrom, ih]
    rfl

section Reads

variable (upper : 16 ≤ j.val)
include upper

theorem reg_poke_low {k : Fin Const.physRegs} (low : k.val < 16) : (s.poke j c).reg k = s.reg k :=
  s.reg_poke_of_ne j c fun e => by omega

theorem copyTarget_poke (x : RegField) : (s.poke j c).copyTarget x = s.copyTarget x := by
  simp only [State.copyTarget, State.v_poke s j c upper, State.poke_index]

theorem searchUnits_poke (y : RegField) : (s.poke j c).searchUnits y = s.searchUnits y := by
  simp only [State.searchUnits, State.v_poke s j c upper, State.poke_cfg]

theorem bulkBytes_poke (x : RegField) : (s.poke j c).bulkBytes x = s.bulkBytes x := by
  simp only [State.bulkBytes, State.v_poke s j c upper, State.poke_mode]

theorem pushFrame_poke : Alike j s.pushFrame (s.poke j c).pushFrame := by
  simp only [State.pushFrame, reg_poke_low upper (show Const.aux1.val < 16 by decide),
    reg_poke_low upper (show Const.aux2.val < 16 by decide),
    reg_poke_low upper (show Const.aux3.val < 16 by decide)]
  exact ((((alike_poke s j c).push _).push _).push _).push _

theorem spriteDots_poke (x y : RegField) (rows bpr : Nat) :
    (s.poke j c).spriteDots x y rows bpr = s.spriteDots x y rows bpr := by
  simp only [State.spriteDots, State.startX, State.startY, State.v_poke s j c upper]
  rfl

theorem hlineDots_poke (x y : RegField) : (s.poke j c).hlineDots x y = s.hlineDots x y := by
  simp only [State.hlineDots, State.startX, State.startY, State.linePattern, State.v_poke s j c upper,
    reg_poke_low upper (show (0 : Fin Const.physRegs).val < 16 by decide)]
  rfl

theorem vlineDots_poke (x y : RegField) : (s.poke j c).vlineDots x y = s.vlineDots x y := by
  simp only [State.vlineDots, State.startX, State.startY, State.linePattern, State.v_poke s j c upper,
    reg_poke_low upper (show (0 : Fin Const.physRegs).val < 16 by decide)]
  rfl

/-- The pair of a register is read as before, but the pair of register 15 in `Extended64`. -/
theorem v1_poke {x : RegField} (other : ¬ (s.mode = .extended64 ∧ j.val = 16 ∧ x = 15#4)) :
    (s.poke j c).v1 x = s.v1 x := by
  refine s.reg_poke_of_ne j c fun e => other ?_
  have e : nextReg s.mode (fieldReg x) = j := e
  have top : 16 ≤ (nextReg s.mode (fieldReg x)).val := by rw [e]; exact upper
  obtain ⟨wide, pair, last⟩ := pair_upper top
  exact ⟨wide, e ▸ pair, last⟩

end Reads

/-! ## Every instruction -/

/-- An instruction carries another value in a register through. -/
def Carries (i : Instr) (s : State) (j : Fin Const.physRegs) (c : Cell64) : Prop :=
  Completes i s fun t => Completes i (s.poke j c) (Alike j t)

theorem carries_setV {f : State → Nat} {x : RegField} (run : ∀ s, exec i s = .next (s.setV x (f s)))
    (read : f (s.poke j c) = f s) : Carries i s j c :=
  ⟨_, run s, _, run _, read ▸ (alike_poke s j c).setReg _ _⟩

theorem carries_setResultFlag {f g : State → Nat} {x : RegField}
    (run : ∀ s, exec i s = .next (s.setResultFlag (fieldReg x) (f s) (g s)))
    (read : f (s.poke j c) = f s) (readFlag : g (s.poke j c) = g s) : Carries i s j c :=
  ⟨_, run s, _, run _, read ▸ readFlag ▸ (alike_poke s j c).setResultFlag _ _ _⟩

theorem carries_skipIf {b : State → Bool} (run : ∀ s, exec i s = .next (s.skipIf (b s)))
    (read : b (s.poke j c) = b s) : Carries i s j c :=
  ⟨_, run s, _, run _, read ▸ (alike_poke s j c).skipIf _⟩

theorem carries_setIndex {a : State → Addr} (run : ∀ s, exec i s = .next (s.setIndex (a s)))
    (read : a (s.poke j c) = a s) : Carries i s j c :=
  ⟨_, run s, _, run _, read ▸ (alike_poke s j c).setIndex _⟩

theorem carries_drawn_setV {f : State → Nat} {x : RegField}
    (run : ∀ s, exec i s = .next (s.drawn.setV x (f s))) (read : f (s.poke j c) = f s) : Carries i s j c :=
  ⟨_, run s, _, run _, read ▸ (alike_poke s j c).drawn.setReg _ _⟩

theorem carries_drawDots {dots : State → List Dot} (run : ∀ s, exec i s = .next (s.drawDots (dots s)))
    (read : dots (s.poke j c) = dots s) : Carries i s j c :=
  ⟨_, run s, _, run _, read ▸ (alike_poke s j c).drawDots _⟩

theorem carries_checkedDraw {dots : State → List Dot} {len : Nat}
    (run : ∀ s, exec i s = .next (s.checkSpan s.index.toNat len (s.drawDots (dots s))))
    (read : dots (s.poke j c) = dots s) : Carries i s j c :=
  ⟨_, run s, _, run _, read ▸ (alike_poke s j c).checkSpan ((alike_poke s j c).drawDots _)⟩

theorem carries_cls : Carries .cls s j c := ⟨_, rfl, _, rfl, c, rfl⟩

theorem carries_ret : Carries .ret s j c := by
  refine ⟨_, rfl, _, rfl, ?_⟩
  have occupied : (s.poke j c).hasOccupied 1 = s.hasOccupied 1 := rfl
  rw [occupied]
  split
  · exact ⟨c, rfl⟩
  · exact ⟨c, rfl⟩

theorem carries_call (nnn : BitVec 12) : Carries (.call nnn) s j c := by
  refine ⟨_, rfl, _, rfl, ?_⟩
  have free : (s.poke j c).hasFree 1 = s.hasFree 1 := rfl
  rw [free]
  split
  · exact ⟨c, rfl⟩
  · exact ⟨c, rfl⟩

theorem carries_ldVxK (x : RegField) : Carries (.ldVxK x) s j c := by
  refine ⟨_, rfl, _, rfl, ?_⟩
  have key : (s.poke j c).firstKey = s.firstKey := rfl
  rw [key]
  split
  · exact (alike_poke s j c).setReg _ _
  · exact ⟨c, rfl⟩

section Upper

variable (upper : 16 ≤ j.val)
include upper

theorem carries_callp (nnn : BitVec 12) : Carries (.callp nnn) s j c := by
  refine ⟨_, rfl, _, rfl, ?_⟩
  have free : (s.poke j c).hasFree Const.frameSlots = s.hasFree Const.frameSlots := rfl
  rw [free]
  split
  · exact (pushFrame_poke upper).setPc _
  · exact ⟨c, rfl⟩

theorem carries_retv : Carries .retv s j c := by
  refine ⟨_, rfl, _, rfl, ?_⟩
  have occupied : (s.poke j c).hasOccupied Const.frameSlots = s.hasOccupied Const.frameSlots := rfl
  rw [occupied, reg_poke_low upper (show Const.retval.val < 16 by decide)]
  split
  · exact (((((alike_poke s j c).popReg _).popReg _).popReg _).popPc).setReg _ _
  · exact ⟨c, rfl⟩

theorem carries_rndb (x y : RegField) : Carries (.rndb x y) s j c := by
  refine ⟨_, rfl, _, rfl, ?_⟩
  have below (b : Nat) : (s.poke j c).drawBelow b = s.drawBelow b := rfl
  rw [State.v_poke s j c upper, below]
  split
  · exact (alike_poke s j c).setReg _ _
  · exact (alike_poke s j c).drawn.setReg _ _

theorem carries_bcopy (x y : RegField) : Carries (.bcopy x y) s j c := by
  refine ⟨_, rfl, _, rfl, ?_⟩
  have bytes (a n : Nat) : (s.poke j c).readBytes a n = s.readBytes a n := rfl
  rw [State.v_poke s j c upper, copyTarget_poke upper, State.poke_index, bytes]
  exact (alike_poke s j c).checkSpan ((alike_poke s j c).checkSpan ((alike_poke s j c).writeBytes _ _))

theorem carries_bsrch (x y : RegField) : Carries (.bsrch x y) s j c := by
  refine ⟨_, rfl, _, rfl, ?_⟩
  rw [State.v_poke s j c upper, searchUnits_poke upper, searchFrom_poke, State.poke_index, State.poke_mode]
  exact (alike_poke s j c).checkSpan ((alike_poke s j c).setFlag _)

theorem carries_ldB (x : RegField) : Carries (.ldB x) s j c := by
  refine ⟨_, rfl, _, rfl, ?_⟩
  rw [State.v_poke s j c upper, State.poke_index, State.poke_mode]
  exact (alike_poke s j c).checkSpan ((alike_poke s j c).writeBytes _ _)

theorem carries_ldMemVx (x : RegField) : Carries (.ldMemVx x) s j c := by
  refine ⟨_, rfl, _, rfl, ?_⟩
  rw [bulkBytes_poke upper, State.poke_index]
  exact (alike_poke s j c).checkSpan (((alike_poke s j c).writeBytes _ _).autoAdvance _)

omit upper in
theorem carries_ldVxMem (x : RegField) : Carries (.ldVxMem x) s j c := by
  refine ⟨_, rfl, _, rfl, ?_⟩
  rw [loadRegs_poke, State.poke_index]
  exact (alike_poke s j c).checkSpan (((alike_poke s j c).loadRegs _).autoAdvance _)

theorem carries_vadd {x y : RegField}
    (other : ¬ (s.mode = .extended64 ∧ j.val = 16 ∧ (x = 15#4 ∨ y = 15#4))) :
    Carries (.vadd x y) s j c := by
  refine ⟨_, rfl, _, rfl, ?_⟩
  have pair : (s.poke j c).pairReg x = s.pairReg x := rfl
  rw [State.v_poke s j c upper, State.v_poke s j c upper, pair,
    v1_poke upper fun ⟨wide, h16, last⟩ => other ⟨wide, h16, .inl last⟩,
    v1_poke upper fun ⟨wide, h16, last⟩ => other ⟨wide, h16, .inr last⟩]
  exact ((alike_poke s j c).setReg _ _).setReg _ _

theorem dotSum_poke {x y : RegField}
    (other : ¬ (s.mode = .extended64 ∧ j.val = 16 ∧ (x = 15#4 ∨ y = 15#4))) :
    (s.poke j c).dotSum x y = s.dotSum x y := by
  rw [State.dotSum, State.v_poke s j c upper, State.v_poke s j c upper,
    v1_poke upper fun ⟨wide, h16, last⟩ => other ⟨wide, h16, .inl last⟩,
    v1_poke upper fun ⟨wide, h16, last⟩ => other ⟨wide, h16, .inr last⟩]
  rfl

/-- Every instruction but those two carries another value above register 15 through. -/
theorem exec_carries (other : ¬ (s.mode = .extended64 ∧ j.val = 16 ∧
    ∃ x y, (x = 15#4 ∨ y = 15#4) ∧ (i = .vadd x y ∨ i = .dot x y))) : Carries i s j c := by
  have read (x : RegField) : (s.poke j c).v x = s.v x := s.v_poke j c upper x
  cases i with
  | cls => exact carries_cls
  | ret => exact carries_ret
  | retv => exact carries_retv upper
  | callp nnn => exact carries_callp upper nnn
  | jp nnn => exact ⟨_, rfl, _, rfl, c, rfl⟩
  | call nnn => exact carries_call nnn
  | seImm x kk => exact carries_skipIf (fun _ => rfl) (by simp only [read])
  | sneImm x kk => exact carries_skipIf (fun _ => rfl) (by simp only [read])
  | seReg x y => exact carries_skipIf (fun _ => rfl) (by simp only [read])
  | vadd x y =>
    exact carries_vadd upper fun ⟨wide, h16, last⟩ => other ⟨wide, h16, x, y, last, .inl rfl⟩
  | dot x y =>
    have sum : (s.poke j c).dotSum x y = s.dotSum x y :=
      dotSum_poke upper fun ⟨wide, h16, last⟩ => other ⟨wide, h16, x, y, last, .inr rfl⟩
    exact carries_setResultFlag (fun _ => rfl) sum (by simp only [sum, State.poke_mode])
  | bcopy x y => exact carries_bcopy upper x y
  | bsrch x y => exact carries_bsrch upper x y
  | rndb x y => exact carries_rndb upper x y
  | ldImm x kk => exact carries_setV (fun _ => rfl) rfl
  | addImm x kk => exact carries_setV (fun _ => rfl) (by simp only [read])
  | ldReg x y => exact carries_setV (fun _ => rfl) (read y)
  | orReg x y => exact carries_setV (fun _ => rfl) (by simp only [read])
  | andReg x y => exact carries_setV (fun _ => rfl) (by simp only [read])
  | xorReg x y => exact carries_setV (fun _ => rfl) (by simp only [read])
  | addReg x y =>
    exact carries_setResultFlag (fun _ => rfl) (by simp only [read]) (by simp only [read, State.poke_mode])
  | sub x y =>
    exact carries_setResultFlag (fun _ => rfl) (by simp only [read, State.poke_mode]) (by simp only [read])
  | shr x => exact carries_setResultFlag (fun _ => rfl) (by simp only [read]) (by simp only [read])
  | subn x y =>
    exact carries_setResultFlag (fun _ => rfl) (by simp only [read, State.poke_mode]) (by simp only [read])
  | mul x y =>
    exact carries_setResultFlag (fun _ => rfl) (by simp only [read]) (by simp only [read, State.poke_mode])
  | div x y =>
    exact carries_setResultFlag (fun _ => rfl) (by simp only [read, State.poke_mode]) (by simp only [read])
  | ror x y => exact carries_setV (fun _ => rfl) (by simp only [read, State.poke_mode])
  | rol x y => exact carries_setV (fun _ => rfl) (by simp only [read, State.poke_mode])
  | popcnt x y => exact carries_setV (fun _ => rfl) (by simp only [read, State.poke_mode])
  | shl x =>
    exact carries_setResultFlag (fun _ => rfl) (by simp only [read]) (by simp only [read, State.poke_mode])
  | sneReg x y => exact carries_skipIf (fun _ => rfl) (by simp only [read])
  | drw16 x y => exact carries_checkedDraw (fun _ => rfl) (spriteDots_poke upper x y 16 2)
  | drw32 x y => exact carries_checkedDraw (fun _ => rfl) (spriteDots_poke upper x y 32 4)
  | hline x y => exact carries_drawDots (fun _ => rfl) (hlineDots_poke upper x y)
  | vline x y => exact carries_drawDots (fun _ => rfl) (vlineDots_poke upper x y)
  | ldI nnn => exact carries_setIndex (fun _ => rfl) rfl
  | jpV0 nnn =>
    exact ⟨_, rfl, _, rfl, reg_poke_low (k := 0) upper (by decide) ▸ (alike_poke s j c).setPc _⟩
  | rnd x kk => exact carries_drawn_setV (fun _ => rfl) rfl
  | drw x y n => exact carries_checkedDraw (fun _ => rfl) (spriteDots_poke upper x y n.toNat 1)
  | skp x => exact carries_skipIf (fun _ => rfl) (by rw [read]; rfl)
  | sknp x => exact carries_skipIf (fun _ => rfl) (by rw [read]; rfl)
  | rndw x => exact carries_drawn_setV (fun _ => rfl) rfl
  | ldVxDt x => exact carries_setV (fun _ => rfl) rfl
  | ldVxK x => exact carries_ldVxK x
  | ldDtVx x => exact ⟨_, rfl, _, rfl, c, by rw [read]; rfl⟩
  | ldStVx x => exact ⟨_, rfl, _, rfl, c, by rw [read]; rfl⟩
  | addI x => exact carries_setIndex (fun _ => rfl) (by rw [read]; rfl)
  | ldF x => exact carries_setIndex (fun _ => rfl) (by rw [read]; rfl)
  | ldB x => exact carries_ldB upper x
  | ldMemVx x => exact carries_ldMemVx upper x
  | ldVxMem x => exact carries_ldVxMem x

end Upper

/-- Settles O60: each operation carries the other value through, and no operand is read above register 15. -/
theorem upperRegistersAreReadAsPairPartnerOnly : Obligations.UpperRegistersAreReadAsPairPartnerOnly := by
  intro i s t j c run upper other
  obtain ⟨t', run', d, rfl⟩ := (exec_carries (c := c) upper other).of_exec run
  exact ⟨d, run'⟩

end Sys2Proof.Machine
end

section
/-!
PROOF. The control flow instructions (spec/40_control_flow.md, R100, R102 to R107).
-/

namespace Sys2Proof.Machine

variable {s t u : State} {i : Instr}

theorem Completes.imp {P Q : State → Prop} (h : Completes i s P) (imp : ∀ t, P t → Q t) :
    Completes i s Q :=
  Exists.imp (fun t ⟨run, holds⟩ => ⟨run, imp t holds⟩) h

/-- Settles O19: a jump is one write of `pc`. -/
theorem jumpsSetPc : Obligations.JumpsSetPc :=
  fun s nnn => ⟨⟨_, rfl, addr12_toNat nnn, s.setPc_only _⟩,
    ⟨_, rfl, BitVec.toNat_ofNat _ _, s.setPc_only _⟩⟩

theorem State.hasOccupied_iff {n : Nat} : s.hasOccupied n = true ↔ n ≤ s.sp := by
  simp [State.hasOccupied]

theorem State.setStack_only (s : State) (k : Vector Cell64 Const.stackDepth) (n : Nat) :
    KeepsAllBut [.stack] s (s.setStack k n) := (touches_setStack s k n).parts

theorem exec_ret_of_occupied (occupied : 0 < s.sp) :
    exec .ret s = .next (s.drop.setPc (s.top.setWidth 16)) :=
  congrArg Host.Outcome.next (if_pos (State.hasOccupied_iff.2 occupied))

theorem exec_ret_of_empty (empty : s.sp = 0) :
    exec .ret s = .next (s.raise (.stackUnderflow (s.pc - 2))) :=
  congrArg Host.Outcome.next (if_neg fun occupied => by
    have := State.hasOccupied_iff.1 occupied
    omega)

theorem ret_pops (occupied : 0 < s.sp) : Completes .ret s fun t =>
    t.pc = (s.slot (s.sp - 1)).setWidth 16 ∧ t.sp = s.sp - 1 ∧ t.stack = s.stack ∧
      KeepsAllBut [.pc, .stack] s t :=
  have dropped : KeepsAllBut [.pc, .stack] s s.drop := (s.setStack_only _ _).mono (by simp)
  ⟨_, exec_ret_of_occupied occupied, rfl, rfl, rfl, dropped.trans ((s.drop.setPc_only _).mono (by simp))⟩

/-- Settles O21: the two clauses are the two branches of R102. -/
theorem returnPopsPcOrReports : Obligations.ReturnPopsPcOrReports :=
  fun s => ⟨fun occupied => (ret_pops occupied).imp fun _ ⟨pc, rest⟩ =>
      ⟨by rw [pc, BitVec.toNat_setWidth], rest⟩,
    fun empty => ⟨_, exec_ret_of_empty empty, s.raise_reports _⟩⟩

/-! ## Nested calls -/

theorem execAll_cons {is : List Instr} (run : exec i s = .next t) : execAll (i :: is) s = execAll is t := by
  rw [execAll, run]

theorem execAll_append {is js : List Instr} (run : execAll is s = .next t) :
    execAll (is ++ js) s = execAll js t := by
  induction is generalizing s with
  | nil =>
    cases run
    rfl
  | cons i is ih =>
    obtain ⟨u, first, -⟩ := exec_ends i s
    rw [execAll_cons first] at run
    rw [List.cons_append, execAll_cons first, ih run]

theorem execAll_singleton (run : exec i s = .next t) : execAll [i] s = .next t := execAll_cons run

/-- A changed element that has its old value back is kept after all. -/
theorem KeepsAllBut.restored {p : Part} {ps : List Part} (h : KeepsAllBut (p :: ps) s t) (same : p.same s t) :
    KeepsAllBut ps s t := by
  intro q hq
  by_cases e : q = p
  · exact e ▸ same
  · exact h q (by simp [e, hq])

theorem State.slot_congr (stack : t.stack = s.stack) (k : Nat) : t.slot k = s.slot k := by
  rw [State.slot, stack, State.slot]

/-- A call, anything that keeps the stack up to it, and a return. -/
theorem call_body_ret {body : List Instr} {nnn : BitVec 12} (free : s.sp < 16)
    (inner : ∀ c : State, c.sp = s.sp + 1 → ∃ b, execAll body c = .next b ∧ b.sp = c.sp ∧
      (∀ k, k < c.sp → b.slot k = c.slot k) ∧ KeepsAllBut [.stack] c b) :
    ∃ t, execAll (.call nnn :: (body ++ [.ret])) s = .next t ∧ t.pc = s.pc ∧ t.sp = s.sp ∧
      (∀ k, k < s.sp → t.slot k = s.slot k) ∧ KeepsAllBut [.stack] s t := by
  obtain ⟨c, called, saved, spc, slotc, -, framec⟩ := call_pushes_and_jumps (s := s) nnn free
  obtain ⟨b, ran, spb, slotb, frameb⟩ := inner c spc
  obtain ⟨t, returned, pct, spt, stackt, framet⟩ := ret_pops (s := b) (by omega)
  have top : b.slot (b.sp - 1) = s.pc.setWidth 64 := by
    rw [spb, spc, Nat.add_sub_cancel, slotb _ (by omega), saved]
  have pc : t.pc = s.pc := by
    rw [pct, top]
    exact BitVec.setWidth_setWidth_of_le _ (by decide) |>.trans (BitVec.setWidth_eq _)
  have frame : KeepsAllBut [.pc, .stack] s t :=
    (framec.trans (frameb.mono (by simp))).trans framet
  refine ⟨t, ?_, pc, by omega, fun k hk => ?_, frame.restored pc⟩
  · rw [execAll_cons called, execAll_append ran, execAll_singleton returned]
  · rw [State.slot_congr stackt, slotb k (by omega), slotc k (by omega)]

/-- Settles O22: by induction on the targets, the outermost call and return around the rest. -/
theorem nestedCallsThenReturnsRestorePc : Obligations.NestedCallsThenReturnsRestorePc := by
  intro targets
  induction targets with
  | nil => exact fun s _ => ⟨s, rfl, rfl, rfl, fun _ _ => rfl, (touches_self s).parts.mono (by simp)⟩
  | cons nnn targets ih =>
    intro s room
    rw [List.length_cons] at room
    rw [List.length_cons, List.replicate_succ', List.map_cons, List.cons_append, ← List.append_assoc]
    refine call_body_ret (by omega) fun c spc => ?_
    obtain ⟨b, ran, -, spb, slotb, frameb⟩ := ih c (by omega)
    exact ⟨b, ran, spb, slotb, frameb⟩

/-! ## Skips -/

theorem completes_of_exec_skipIf {p : Prop} [Decidable p] (run : exec i s = .next (s.skipIf (decide p))) :
    Completes i s fun t => t.pc = (if p then s.pc + 2 else s.pc) ∧ KeepsAllBut [.pc] s t :=
  ⟨_, run, by simp, s.skipIf_only _⟩

theorem completes_of_exec_skipIf_not {p : Prop} [Decidable p]
    (run : exec i s = .next (s.skipIf (decide ¬p))) :
    Completes i s fun t => t.pc = (if p then s.pc else s.pc + 2) ∧ KeepsAllBut [.pc] s t :=
  (completes_of_exec_skipIf run).imp fun _ ⟨pc, frame⟩ => ⟨by rw [pc, ite_not], frame⟩

/-- Settles O23: each skip is one conditional write of `pc`. -/
theorem skipsCompareWholeRegisters : Obligations.SkipsCompareWholeRegisters :=
  fun _ _ _ _ => ⟨completes_of_exec_skipIf rfl, completes_of_exec_skipIf_not rfl,
    completes_of_exec_skipIf rfl, completes_of_exec_skipIf_not rfl⟩

end Sys2Proof.Machine
end

section
/-!
PROOF. The arithmetic and extended math instructions (spec/41_arithmetic.md, R110, R113 to R120;
spec/42_extended_math.md, R125 to R132).
-/

namespace Sys2Proof.Machine

variable {s : State} {i : Instr} {x : RegField}

/-! ## One register -/

theorem literal_fits (m : Mode) (kk : BitVec 8) : kk.toNat < 2 ^ m.regBits :=
  kk.isLt.trans_le (byte_le_pow_regBits m)

/-- Settles O25: a byte fits every register. -/
theorem loadImmediateZeroExtends : Obligations.LoadImmediateZeroExtends :=
  fun s _ kk => completes_of_exec_setV_of_lt rfl (literal_fits s.mode kk)

/-- Settles O26: a bitwise operation on two register values fits the register. -/
theorem bitwiseOperationsActBitByBit : Obligations.BitwiseOperationsActBitByBit := by
  intro s x y
  have hx := s.v_lt x
  have hy := s.v_lt y
  refine ⟨?_, ?_, ?_⟩
  · refine (completes_of_exec_setV_of_lt rfl (Nat.or_lt_two_pow hx hy)).imp
      fun t ⟨value, only⟩ => ⟨fun k => ?_, only⟩
    exact value ▸ Nat.testBit_or _ _ k
  · refine (completes_of_exec_setV_of_lt rfl (Nat.and_lt_two_pow _ hy)).imp
      fun t ⟨value, only⟩ => ⟨fun k => ?_, only⟩
    exact value ▸ Nat.testBit_and _ _ k
  · refine (completes_of_exec_setV_of_lt rfl (Nat.xor_lt_two_pow hx hy)).imp
      fun t ⟨value, only⟩ => ⟨fun k => ?_, only⟩
    exact value ▸ Nat.testBit_xor _ _ k

theorem regBits_pos (m : Mode) : 0 < m.regBits := by cases m <;> decide

theorem rotateAmount_lt (m : Mode) (v : Nat) : rotateAmount m v < m.regBits := Nat.mod_lt _ (regBits_pos m)

/-- The place in the circle depends on the amount modulo the width only. -/
theorem circle_rotateAmount (m : Mode) (k v : Nat) :
    (k + rotateAmount m v) % m.regBits = (k + v) % m.regBits := Nat.add_mod_mod k v m.regBits

/-- Settles O34: the result of a rotate fits the register, and its bits are those of the circle. -/
theorem rotatesMoveEveryBitAround : Obligations.RotatesMoveEveryBitAround := by
  intro s x y
  have hx := s.v_lt x
  have hr := rotateAmount_lt s.mode (s.v y)
  refine ⟨?_, ?_⟩
  · refine (completes_of_exec_setV_of_lt rfl (rotateRight_lt hx hr)).imp fun t ⟨value, only⟩ =>
      ⟨fun k hk => ?_, only⟩
    rw [value, rotateRight_testBit hx hr hk, circle_rotateAmount]
  · refine (completes_of_exec_setV_of_lt rfl (rotateLeft_lt hx hr)).imp fun t ⟨value, only⟩ =>
      ⟨fun k hk => ?_, only⟩
    rw [value, ← circle_rotateAmount, rotateLeft_testBit hx hr hk]

/-- Settles O35: the count is at most the width, so it fits the register. -/
theorem populationCountSumsTheBits : Obligations.PopulationCountSumsTheBits := by
  intro s x y
  have bound := popCount_le s.mode.regBits (s.v y)
  have fits : popCount s.mode.regBits (s.v y) < 2 ^ s.mode.regBits := bound.trans_lt Nat.lt_two_pow_self
  refine (completes_of_exec_setV_of_lt rfl fits).imp fun t ⟨value, only⟩ => ⟨?_, ?_, only⟩
  · rw [value, popCount_eq_sum]
  · rw [value]
    exact bound

/-! ## A result and a flag -/

/-- The flag remains in the flags register, and any other destination holds the result modulo `2^W` (R25). -/
theorem completes_of_exec_setResultFlag {r f : Nat}
    (run : exec i s = .next (s.setResultFlag (fieldReg x) r f)) (fits : f < 2 ^ s.mode.regBits) :
    Completes i s fun t =>
      t.reg (flagReg s.mode) = f ∧ (fieldReg x ≠ flagReg s.mode → t.v x = r % 2 ^ s.mode.regBits) ∧
      OnlyRegs [fieldReg x, flagReg s.mode] s t :=
  ⟨_, run, (s.flag_setResultFlag _ r f).trans (Nat.mod_eq_of_lt fits),
    fun other => s.result_setResultFlag other r f, s.setResultFlag_only x r f⟩

theorem boolFlag_decide (p : Prop) [Decidable p] : boolFlag (decide p) = if p then 1 else 0 := by
  simp [boolFlag]

theorem boolFlag_fits (m : Mode) (b : Bool) : boolFlag b < 2 ^ m.regBits :=
  boolFlag_mod m b ▸ Nat.mod_lt _ (Nat.two_pow_pos _)

/-- The same for a flag that is a condition. -/
theorem completes_of_exec_setResultCondition {r : Nat} {p : Prop} [Decidable p]
    (run : exec i s = .next (s.setResultFlag (fieldReg x) r (boolFlag (decide p)))) : Completes i s fun t =>
      t.reg (flagReg s.mode) = (if p then 1 else 0) ∧
      (fieldReg x ≠ flagReg s.mode → t.v x = r % 2 ^ s.mode.regBits) ∧
      OnlyRegs [fieldReg x, flagReg s.mode] s t :=
  (completes_of_exec_setResultFlag run (boolFlag_fits _ _)).imp fun _ ⟨flag, rest⟩ =>
    ⟨flag.trans (boolFlag_decide p), rest⟩

/-- Settles O27: the carry is a condition on the sum before it is narrowed. -/
theorem addWritesSumThenCarry : Obligations.AddWritesSumThenCarry :=
  fun _ _ _ => completes_of_exec_setResultCondition rfl

/-- Settles O30: the overflow is a condition on the product before it is narrowed. -/
theorem multiplyWritesProductThenOverflow : Obligations.MultiplyWritesProductThenOverflow :=
  fun _ _ _ => completes_of_exec_setResultCondition rfl

/-- Settles O28: the sum with `2^W` before the subtraction is the difference modulo `2^W`. -/
theorem subtractionsWriteDifferenceThenNotBorrow : Obligations.SubtractionsWriteDifferenceThenNotBorrow := by
  intro s x y
  have hx := s.v_lt x
  have hy := s.v_lt y
  refine ⟨?_, ?_⟩
  · refine (completes_of_exec_setResultCondition rfl).imp fun t ⟨flag, result, only⟩ =>
      ⟨flag, fun other => ?_, only⟩
    rw [result other, subMod_mod s.mode hx hy]
  · refine (completes_of_exec_setResultCondition rfl).imp fun t ⟨flag, result, only⟩ =>
      ⟨flag, fun other => ?_, only⟩
    rw [result other, subMod_mod s.mode hy hx]

theorem digit_two_fits (m : Mode) (v : Nat) : v % 2 < 2 ^ m.regBits :=
  (Nat.mod_lt v (by decide)).trans_le (one_lt_pow_regBits m)

/-- A bit as a flag. -/
theorem bit_eq_ite (a k : Nat) : a / 2 ^ k % 2 = if a.testBit k then 1 else 0 := by
  rw [Nat.testBit_eq_decide_div_mod_eq]
  have := Nat.mod_lt (a / 2 ^ k) (show 2 > 0 by decide)
  split <;> simp_all

/-- Settles O29: halving moves every bit one place down, and the lost bit is the last or the first of `W`. -/
theorem shiftsWriteResultThenLostBit : Obligations.ShiftsWriteResultThenLostBit := by
  intro s x
  refine ⟨?_, ?_⟩
  · refine (completes_of_exec_setResultFlag rfl (digit_two_fits _ _)).imp fun t ⟨flag, result, only⟩ =>
      ⟨?_, fun other k => ?_, only⟩
    · rw [flag, ← bit_eq_ite, Nat.pow_zero, Nat.div_one]
    · have half : s.v x / 2 < 2 ^ s.mode.regBits := (Nat.div_le_self _ _).trans_lt (s.v_lt x)
      rw [result other, Nat.mod_eq_of_lt half, Nat.testBit_succ]
  · refine (completes_of_exec_setResultFlag rfl (digit_two_fits _ _)).imp fun t ⟨flag, result, only⟩ =>
      ⟨?_, result, only⟩
    rw [flag, ← bit_eq_ite]

theorem remainderFlag_fits (y : RegField) : remainderFlag (s.v x) (s.v y) < 2 ^ s.mode.regBits := by
  unfold remainderFlag
  split
  · exact Nat.two_pow_pos _
  · exact (Nat.mod_le _ _).trans_lt (s.v_lt x)

theorem quotient_fits (y : RegField) : quotient s.mode (s.v x) (s.v y) < 2 ^ s.mode.regBits := by
  unfold quotient
  split
  · exact maxValue_lt s.mode
  · exact (Nat.div_le_self _ _).trans_lt (s.v_lt x)

/-- Settles O31: quotient and remainder fit, and are those of the division, or `MAXV` and 0 for a zero
divisor. -/
theorem divideWritesQuotientThenRemainder : Obligations.DivideWritesQuotientThenRemainder := by
  intro s x y
  refine (completes_of_exec_setResultFlag rfl (remainderFlag_fits y)).imp fun t ⟨flag, result, only⟩ =>
    ⟨fun pos => ?_, fun zero => ?_, only⟩ <;>
    rw [Nat.mod_eq_of_lt (quotient_fits y)] at result
  · rw [remainderFlag, if_neg (by omega)] at flag
    rw [quotient, if_neg (by omega)] at result
    refine ⟨flag ▸ Nat.mod_lt _ pos, flag, fun other => ?_⟩
    rw [result other, flag, Nat.div_add_mod]
  · rw [remainderFlag, if_pos zero] at flag
    rw [quotient, if_pos zero] at result
    exact ⟨flag, result⟩

/-- Settles O33: the two halves are the digits of the sum to the base `2^W`. -/
theorem dotProductWritesLowThenHighHalf : Obligations.DotProductWritesLowThenHighHalf := by
  intro s x y
  refine (completes_of_exec_setResultFlag rfl (Nat.mod_lt _ (Nat.two_pow_pos _))).imp
    fun t ⟨flag, result, only⟩ => ⟨fun other => ?_, flag, only⟩
  rw [result other, flag, Nat.two_mul, Nat.pow_add, Nat.mod_mul]
  rfl

/-! ## A pair -/

theorem State.setPair_only (s : State) (x : RegField) (a b : Nat) :
    OnlyRegs [fieldReg x, s.pairReg x] s ((s.setV x a).setReg (s.pairReg x) b) := by
  refine ⟨(touches_setReg_setReg s _ _ _ _).parts, fun j hj => ?_⟩
  simp only [List.mem_cons, List.not_mem_nil, or_false, not_or] at hj
  exact (State.regs_setReg_ne _ hj.2 b).trans (s.regs_setReg_ne hj.1 a)

/-- Settles O32: the second write is to another register, so both lanes remain. -/
theorem vectorAddWritesBothLanes : Obligations.VectorAddWritesBothLanes :=
  fun s x _ => ⟨_, rfl,
    (State.reg_setReg_ne _ (s.pairReg_ne x).symm _).trans (s.v_setV_same x _),
    (s.setV x _).reg_setReg_same _ _, rfl, s.setPair_only x _ _⟩

end Sys2Proof.Machine
end

section
/-!
PROOF. Span checks, the memory block instructions, BCD and the bulk transfers (spec/20_memory.md, R57;
spec/43_memory_block.md, R135, R136; spec/47_index_font_bcd_bulk.md, R163 to R165).
-/

namespace Sys2Proof.Machine

variable {s t u : State} {i : Instr} {a len : Nat} {rest : State}

theorem completes_of_exec_checkSpan {P : State → Prop} (run : exec i s = .next (s.checkSpan a len rest))
    (inside : len = 0 ∨ a + len ≤ s.mode.memSize) (holds : P rest) : Completes i s P :=
  ⟨rest, by rw [run, s.checkSpan_ok ((s.spanOk_iff a len).2 inside)], holds⟩

theorem State.spanOk_eq_false (pos : 0 < len) (outside : s.mode.memSize < a + len) :
    s.spanOk a len = false := by
  rw [← Bool.not_eq_true, State.spanOk_iff]
  omega

theorem reports_of_exec_checkSpan (run : exec i s = .next (s.checkSpan a len rest)) (pos : 0 < len)
    (outside : s.mode.memSize < a + len) : Completes i s (Reports (.memoryFault a len) s) :=
  ⟨_, by rw [run, s.checkSpan_fault (State.spanOk_eq_false pos outside)], s.raise_reports _⟩

theorem digits_pos (m : Mode) : 0 < m.digits := by cases m <;> decide

theorem regBytes_pos (m : Mode) : 0 < m.regBytes := by cases m <;> decide

/-- The destination check of `BCOPY` comes after the source check (R135). -/
theorem exec_bcopy_of_source {x y : RegField}
    (source : s.v y = 0 ∨ s.index.toNat + s.v y ≤ s.mode.memSize) :
    exec (.bcopy x y) s = .next (s.checkSpan (s.copyTarget x) (s.v y)
      (s.writeBytes (s.copyTarget x) (s.readBytes s.index.toNat (s.v y)))) :=
  congrArg Host.Outcome.next (s.checkSpan_ok ((s.spanOk_iff _ _).2 source) _)

/-- Settles O11: each of these instructions is one span check, or two, before its effect. -/
theorem failedSpanCheckOnlyReports : Obligations.FailedSpanCheckOnlyReports := by
  intro s x y n
  refine ⟨reports_of_exec_checkSpan rfl, reports_of_exec_checkSpan rfl (by decide),
    reports_of_exec_checkSpan rfl (by decide), reports_of_exec_checkSpan rfl (digits_pos _),
    fun outside => ?_, reports_of_exec_checkSpan rfl, fun pos source => ?_, fun pos => ?_⟩
  · have pos := Nat.mul_pos (Nat.succ_pos x.toNat) (regBytes_pos s.mode)
    exact ⟨reports_of_exec_checkSpan rfl pos outside, reports_of_exec_checkSpan rfl pos outside⟩
  · exact reports_of_exec_checkSpan (exec_bcopy_of_source (.inr source)) pos
  · exact reports_of_exec_checkSpan rfl (Nat.mul_pos pos (regBytes_pos s.mode))

/-! ## Block copy and block search -/

/-- Settles O36: the bytes are read before any is written, so each stands at its place. -/
theorem blockCopyBehavesLikeMemmove : Obligations.BlockCopyBehavesLikeMemmove := by
  intro s x y inside
  have source := inside.imp_right And.left
  have target : s.v y = 0 ∨ s.copyTarget x + s.v y ≤ s.mode.memSize := inside.imp_right And.right
  have length := s.readBytes_length s.index.toNat (s.v y)
  have outside := s.writeBytes_keepsOutside (s.copyTarget x) (s.readBytes s.index.toNat (s.v y))
  rw [length] at outside
  refine completes_of_exec_checkSpan (exec_bcopy_of_source source) target
    ⟨fun k hk => ?_, outside, s.writeBytes_only _ _⟩
  exact (s.readByte_writeBytes_inside _ _ k (by rw [length]; exact hk)).trans (by simp [State.readBytes])

/-- The unit that a search finds is the first that matches. -/
theorem State.searchFrom_eq_some {needle c r : Nat} (below : r < c)
    (hit : s.memRead (a + r * s.mode.regBytes) s.mode.regBytes = needle)
    (first : ∀ k, k < r → s.memRead (a + k * s.mode.regBytes) s.mode.regBytes ≠ needle) :
    s.searchFrom a needle 0 c = some r := by
  cases found : s.searchFrom a needle 0 c with
  | none => exact absurd hit (s.searchFrom_none found r (Nat.zero_le _) (by omega))
  | some q =>
    obtain ⟨-, -, hitq, firstq⟩ := s.searchFrom_some found
    rcases Nat.lt_trichotomy q r with lt | eq | gt
    · exact absurd hitq (first q lt)
    · rw [eq]
    · exact absurd hit (firstq r (Nat.zero_le _) gt)

theorem State.searchFrom_eq_none {needle c : Nat}
    (none : ∀ k, k < c → s.memRead (a + k * s.mode.regBytes) s.mode.regBytes ≠ needle) :
    s.searchFrom a needle 0 c = .none := by
  cases found : s.searchFrom a needle 0 c with
  | none => rfl
  | some q =>
    obtain ⟨-, below, hit, -⟩ := s.searchFrom_some found
    exact absurd hit (none q (by omega))

/-- In the extended modes the window of R7 is too short for an offset to be `MAXV`. -/
theorem offset_ne_maxValue {r : Nat} (valid : s.cfg.valid = true) (wide : s.mode ≠ .legacy8)
    (below : r < s.cfg.searchWindowMax) : r ≠ s.mode.maxValue := by
  obtain ⟨-, -, ⟨-, window⟩, -⟩ := (Config.valid_iff s.cfg).1 valid
  have least : Mode.extended16.maxValue ≤ s.mode.maxValue := by
    cases h : s.mode
    · exact absurd h wide
    · exact Nat.le_refl _
    · decide
  omega

/-- Settles O37: the search answers the first match, which a register can hold, or `MAXV`. -/
theorem blockSearchReportsFirstMatch : Obligations.BlockSearchReportsFirstMatch := by
  rintro s x y c rfl inside
  have span : s.searchUnits y * s.mode.regBytes = 0 ∨
      s.index.toNat + s.searchUnits y * s.mode.regBytes ≤ s.mode.memSize :=
    inside.imp_left fun zero => Nat.mul_eq_zero.2 (.inl zero)
  refine completes_of_exec_checkSpan rfl span ⟨fun r below hit first => ⟨?_, fun valid wide => ?_⟩,
    fun none => ?_, (touches_setReg s _ _).parts, s.setReg_keeps _ _⟩
  · have fits : r < 2 ^ s.mode.regBits := below.trans ((Nat.min_le_left _ _).trans_lt (s.v_lt y))
    have found : s.searchFrom s.index.toNat (s.v x) 0 (s.searchUnits y) = some r :=
      State.searchFrom_eq_some below hit first
    rw [State.reg_setFlag_same, found, searchFlag, Nat.mod_eq_of_lt fits]
  · exact offset_ne_maxValue valid wide (below.trans_le (Nat.min_le_right _ _))
  · have found : s.searchFrom s.index.toNat (s.v x) 0 (s.searchUnits y) = .none :=
      State.searchFrom_eq_none none
    rw [State.reg_setFlag_same, found, searchFlag, Nat.mod_eq_of_lt (maxValue_lt _)]

/-! ## BCD -/

/-- Settles O46: the digits stand where they are written, and `DIGITS` digits hold every register value. -/
theorem bcdStoreWritesTheDigits : Obligations.BcdStoreWritesTheDigits := by
  intro s x inside
  have length := bcdDigits_length s.mode.digits (s.v x)
  have outside := s.writeBytes_keepsOutside s.index.toNat (bcdDigits s.mode.digits (s.v x))
  have back := s.readBytes_writeBytes s.index.toNat (bcdDigits s.mode.digits (s.v x))
  rw [length] at outside back
  refine completes_of_exec_checkSpan rfl (.inr inside)
    ⟨fun k hk => ?_, ?_, outside, s.writeBytes_only _ _⟩
  · have hk' : k < (bcdDigits s.mode.digits (s.v x)).length := by rw [length]; exact hk
    rw [s.readByte_writeBytes_inside _ _ k hk', bcdDigits_getElem _ _ _ hk', BitVec.toNat_ofNat]
    omega
  · rw [back, bcdDigits_value, Nat.mod_eq_of_lt ((s.v_lt x).trans_le (pow_regBits_le_digits s.mode))]

/-! ## Bulk transfers -/

theorem State.autoAdvance_toNat (s : State) (len : Nat) : (s.autoAdvance len).index.toNat =
    if s.mode = .legacy8 then s.index.toNat else (s.index.toNat + len) % 65536 := by
  rw [State.autoAdvance_index]
  cases s.mode <;> simp [Mode.autoInc]

theorem State.autoAdvance_only (s : State) (len : Nat) : KeepsAllBut [.index] s (s.autoAdvance len) :=
  (touches_autoAdvance s len).parts

theorem State.autoAdvance_readByte (s : State) (len a : Nat) :
    (s.autoAdvance len).readByte a = s.readByte a :=
  State.readByte_congr s (s.autoAdvance_cfg len) (s.autoAdvance_mem len) a

theorem exec_ldMemVx_of_inside {x : RegField} (inside : s.index.toNat + s.bulkLength x ≤ s.mode.memSize) :
    exec (.ldMemVx x) s =
      .next ((s.writeBytes s.index.toNat (s.bulkBytes x)).autoAdvance (s.bulkLength x)) :=
  congrArg Host.Outcome.next (s.checkSpan_ok ((s.spanOk_iff _ _).2 (.inr inside)) _)

theorem exec_ldVxMem_of_inside {x : RegField} (inside : s.index.toNat + s.bulkLength x ≤ s.mode.memSize) :
    exec (.ldVxMem x) s = .next ((s.loadRegs s (x.toNat + 1)).autoAdvance (s.bulkLength x)) :=
  congrArg Host.Outcome.next (s.checkSpan_ok ((s.spanOk_iff _ _).2 (.inr inside)) _)

/-- Byte `k` of the image of register `i` after a bulk store. -/
theorem State.readByte_bulkStore {x : RegField} {n k : Nat} (hn : n ≤ x.toNat) (hk : k < s.mode.regBytes) :
    (s.writeBytes s.index.toNat (s.bulkBytes x)).readByte (s.index.toNat + n * s.mode.regBytes + k) =
      BitVec.ofNat 8 (s.v (BitVec.ofNat 4 n) / 256 ^ (s.mode.regBytes - 1 - k)) := by
  have below : n * s.mode.regBytes + k < (s.bulkBytes x).length := by
    rw [State.bulkBytes_length]
    exact s.bulk_offset_lt hn hk
  rw [Nat.add_assoc, s.readByte_writeBytes_inside _ _ _ below, s.bulkBytes_getElem hn hk]

/-- Settles O47: the images are one write of bytes, then `I` moves where the mode says so. -/
theorem bulkStoreWritesBigEndianImages : Obligations.BulkStoreWritesBigEndianImages := by
  rintro s x len rfl inside
  have stored : KeepsAllBut [.mem, .index] s (s.writeBytes s.index.toNat (s.bulkBytes x)) :=
    (s.writeBytes_only _ _).mono (by simp)
  have outside := s.writeBytes_keepsOutside s.index.toNat (s.bulkBytes x)
  rw [State.bulkBytes_length] at outside
  refine ⟨_, exec_ldMemVx_of_inside inside, fun n k hn hk => ?_, ?_, fun b hb => ?_,
    stored.trans ((State.autoAdvance_only _ _).mono (by simp))⟩
  · rw [State.autoAdvance_readByte, State.readByte_bulkStore hn hk, BitVec.toNat_ofNat]
  · rw [State.autoAdvance_toNat, State.writeBytes_mode, State.writeBytes_index]
    rfl
  · rw [State.autoAdvance_readByte, outside b hb]

/-- Settles O48: each load is the number of its image, whose bytes are its digits to the base 256. -/
theorem bulkLoadReadsBigEndianImages : Obligations.BulkLoadReadsBigEndianImages := by
  rintro s x len rfl inside
  have hx := x.isLt
  have loaded : KeepsAllBut [.regs, .index] s (s.loadRegs s (x.toNat + 1)) :=
    (touches_loadRegs s s _).parts.mono (by simp)
  refine ⟨_, exec_ldVxMem_of_inside inside, fun n k hn hk => ?_, ?_, fun j hj => ?_,
    loaded.trans ((State.autoAdvance_only _ _).mono (by simp))⟩
  · rw [State.autoAdvance_v, s.loadRegs_v s hn, ← regBytes_bits, Nat.mod_eq_of_lt (s.memRead_lt _ _),
      s.memRead_byte _ _ k hk]
  · rw [State.autoAdvance_toNat, State.loadRegs_mode, State.loadRegs_index]
    rfl
  · simp only [State.autoAdvance_regs]
    exact s.loadRegs_regs s (by omega) j (by omega)

/-- The image that a bulk store leaves reads as the register's value. -/
theorem State.memRead_bulkStore {x : RegField} {n : Nat} (hn : n ≤ x.toNat) :
    (s.writeBytes s.index.toNat (s.bulkBytes x)).memRead (s.index.toNat + n * s.mode.regBytes)
      s.mode.regBytes = s.v (BitVec.ofNat 4 n) := by
  have bytes : (s.writeBytes s.index.toNat (s.bulkBytes x)).readBytes
      (s.index.toNat + n * s.mode.regBytes) s.mode.regBytes =
      bytesOf s.mode.regBytes (s.v (BitVec.ofNat 4 n)) :=
    List.map_congr_left fun k hk => State.readByte_bulkStore hn (List.mem_range.1 hk)
  rw [State.memRead, bytes, bigEndian_bytesOf, regBytes_bits, Nat.mod_eq_of_lt (s.v_lt _)]

/-- Settles O49: the load reads the images that the store left, from the same `I`. -/
theorem bulkLoadRestoresWhatBulkStoreWrote : Obligations.BulkLoadRestoresWhatBulkStoreWrote := by
  intro s t u w x inside stored mode cfg mem index loaded n hn
  rw [exec_ldMemVx_of_inside inside] at stored
  cases stored
  rw [State.autoAdvance_mode, State.writeBytes_mode] at mode
  rw [State.autoAdvance_cfg] at cfg
  rw [State.autoAdvance_mem] at mem
  have inside' : u.index.toNat + u.bulkLength x ≤ u.mode.memSize := by
    rw [State.bulkLength, index, mode]
    exact inside
  rw [exec_ldVxMem_of_inside inside'] at loaded
  cases loaded
  rw [State.autoAdvance_v, u.loadRegs_v u hn, State.memRead_congr _ cfg mem, index, mode,
    State.memRead_bulkStore hn, Nat.mod_eq_of_lt (s.v_lt _)]

end Sys2Proof.Machine
end

section
/-!
PROOF. The display instructions (spec/44_display.md, R140 to R148).
-/

namespace Sys2Proof.Machine

variable {s t u : State} {i : Instr} {x y : RegField}

/-- Settles O38: `CLS` is the one row of its word, and keeps the entries outside the window. -/
theorem clearScreenClearsEveryPixel : Obligations.ClearScreenClearsEveryPixel := by
  refine ⟨fun m => ?_, fun s => ⟨_, rfl, fun j hj => ?_, fun j hj => ?_, rfl,
    ((touches_setFb s _).seq (touches_setRedraw _ true)).parts⟩⟩
  · rw [decodeWord_tableR80]
    rfl
  · have out : ¬ s.pixelCount ≤ j := Nat.not_le.2 hj
    simp [Pixels.on, Pixels.outside, out]
  · have within : s.pixelCount ≤ j := hj
    simp [Pixels.on, Pixels.outside, within]

/-- Settles O39: the effect of the pixel calls, after the span check of a sprite. -/
theorem drawingTurnsPixelsOver : Obligations.DrawingTurnsPixelsOver := by
  intro s x y n
  have drawn (dots : List Dot) := s.drawDots_drawn dots
  exact ⟨fun inside => completes_of_exec_checkSpan rfl inside (drawn _),
    fun inside => completes_of_exec_checkSpan rfl (.inr inside) (drawn _),
    fun inside => completes_of_exec_checkSpan rfl (.inr inside) (drawn _),
    ⟨_, rfl, drawn _⟩, ⟨_, rfl, drawn _⟩⟩

/-! ## Drawing twice -/

theorem State.hits_drawDots (s : State) (dots calls : List Dot) (j : Nat) :
    (s.drawDots dots).hits calls j = s.hits calls j := rfl

/-- The same pixel calls turn every entry over as often again. -/
theorem State.drawDots_twice (s : State) (dots : List Dot) (j : Nat) :
    ((s.drawDots dots).drawDots dots).fb.on j = s.fb.on j := by
  rw [State.drawDots_fb, State.plot_on, State.hits_drawDots, State.drawDots_fb, State.plot_on]
  cases s.fb.on j <;> simp

/-- What a drawing instruction reads beside its position registers. -/
structure SameCanvas (s t : State) : Prop where
  mem : t.mem = s.mem
  cfg : t.cfg = s.cfg
  mode : t.mode = s.mode
  index : t.index = s.index
  pattern : t.linePattern = s.linePattern

theorem sameCanvas_drawDots (s : State) (dots : List Dot) : SameCanvas s (s.drawDots dots) where
  mem := rfl
  cfg := rfl
  mode := rfl
  index := rfl
  pattern := by
    have other : (0 : Fin Const.physRegs) ≠ flagReg s.mode := by cases s.mode <;> decide
    exact State.reg_setFlag_ne (s.setFb _) other _

theorem spriteDots_congr (same : SameCanvas s t) (hx : t.v x = s.v x) (hy : t.v y = s.v y) (rows bpr : Nat) :
    t.spriteDots x y rows bpr = s.spriteDots x y rows bpr := by
  simp only [State.spriteDots, State.startX, State.startY, State.dw, State.dh, hx, hy, same.mode, same.cfg,
    same.index, State.readByte_congr s same.cfg same.mem]

theorem hlineDots_congr (same : SameCanvas s t) (hx : t.v x = s.v x) (hy : t.v y = s.v y) :
    t.hlineDots x y = s.hlineDots x y := by
  simp only [State.hlineDots, State.startX, State.startY, State.dw, State.dh, hx, hy, same.mode, same.cfg,
    same.pattern]

theorem vlineDots_congr (same : SameCanvas s t) (hx : t.v x = s.v x) (hy : t.v y = s.v y) :
    t.vlineDots x y = s.vlineDots x y := by
  simp only [State.vlineDots, State.startX, State.startY, State.dw, State.dh, hx, hy, same.mode, same.cfg,
    same.pattern]

/-- A drawing instruction whose pixel calls are the same the second time. -/
theorem fb_of_drawn_twice {dots : State → List Dot} (run : ∀ s, exec i s = .next (s.drawDots (dots s)))
    (same : SameCanvas s t → dots t = dots s) (first : exec i s = .next t) (second : exec i t = .next u)
    (j : Nat) : u.fb.on j = s.fb.on j := by
  rw [run] at first second
  cases first
  cases second
  rw [same (sameCanvas_drawDots s _)]
  exact s.drawDots_twice _ j

/-- The same for a sprite, whose span check gives the same answer twice. -/
theorem fb_of_checkedDraw_twice {dots : State → List Dot} {len : Nat}
    (run : ∀ s, exec i s = .next (s.checkSpan s.index.toNat len (s.drawDots (dots s))))
    (same : SameCanvas s t → dots t = dots s) (first : exec i s = .next t) (second : exec i t = .next u)
    (j : Nat) : u.fb.on j = s.fb.on j := by
  rw [run] at first second
  cases ok : s.spanOk s.index.toNat len
  · rw [State.checkSpan_fault _ ok] at first
    cases first
    have again (e : ErrorCond) : (s.raise e).spanOk (s.raise e).index.toNat len = false := ok
    rw [State.checkSpan_fault _ (again _)] at second
    cases second
    rfl
  · rw [State.checkSpan_ok _ ok] at first
    cases first
    have again (dots : List Dot) : (s.drawDots dots).spanOk (s.drawDots dots).index.toNat len = true := ok
    rw [State.checkSpan_ok _ (again _), same (sameCanvas_drawDots s _)] at second
    cases second
    exact s.drawDots_twice _ j

/-- Settles O41: with its position registers as before, a drawing makes the same pixel calls again. -/
theorem drawingTwiceRestoresThePixels : Obligations.DrawingTwiceRestoresThePixels := by
  intro s t u x y i drawing first hx hy second
  rcases drawing with ⟨n, rfl⟩ | rfl | rfl | rfl | rfl
  · exact fb_of_checkedDraw_twice (fun _ => rfl) (fun same => spriteDots_congr same hx hy n.toNat 1) first
      second
  · exact fb_of_checkedDraw_twice (fun _ => rfl) (fun same => spriteDots_congr same hx hy 16 2) first second
  · exact fb_of_checkedDraw_twice (fun _ => rfl) (fun same => spriteDots_congr same hx hy 32 4) first second
  · exact fb_of_drawn_twice (fun _ => rfl) (fun same => hlineDots_congr same hx hy) first second
  · exact fb_of_drawn_twice (fun _ => rfl) (fun same => vlineDots_congr same hx hy) first second

/-! ## The pixel calls -/

theorem mem_byteDots {px py : Nat} {b : Byte} {d : Dot} :
    d ∈ byteDots px py b ↔ ∃ col, col < 8 ∧ d = ⟨px + col, py, b.getLsbD (7 - col)⟩ := by
  simp [byteDots, eq_comm]

theorem mem_spriteDots {rows bpr : Nat} {d : Dot} : d ∈ s.spriteDots x y rows bpr ↔
    ∃ r k col, r < rows ∧ k < bpr ∧ col < 8 ∧ d = ⟨s.v x % s.dw + 8 * k + col, s.v y % s.dh + r,
      (s.readByte (s.index.toNat + bpr * r + k)).getLsbD (7 - col)⟩ := by
  simp only [State.spriteDots, List.mem_flatMap, List.mem_range, mem_byteDots]
  constructor
  · rintro ⟨r, hr, k, hk, col, hcol, rfl⟩
    exact ⟨r, k, col, hr, hk, hcol, rfl⟩
  · rintro ⟨r, k, col, hr, hk, hcol, rfl⟩
    exact ⟨r, hr, k, hk, col, hcol, rfl⟩

theorem mem_hlineDots {d : Dot} : d ∈ s.hlineDots x y ↔
    ∃ k, k < s.mode.regBits ∧ s.v x % s.dw + k < s.dw ∧
      d = ⟨s.v x % s.dw + k, s.v y % s.dh, (s.reg 0).testBit (s.mode.regBits - 1 - k)⟩ := by
  simp only [State.hlineDots, List.mem_map, List.mem_range, Nat.lt_min, Nat.lt_sub_iff_add_lt', and_assoc,
    eq_comm (b := d)]
  rfl

theorem mem_vlineDots {d : Dot} : d ∈ s.vlineDots x y ↔
    ∃ k, k < s.mode.regBits ∧ s.v y % s.dh + k < s.dh ∧
      d = ⟨s.v x % s.dw, s.v y % s.dh + k, (s.reg 0).testBit (s.mode.regBits - 1 - k)⟩ := by
  simp only [State.vlineDots, List.mem_map, List.mem_range, Nat.lt_min, Nat.lt_sub_iff_add_lt', and_assoc,
    eq_comm (b := d)]
  rfl

theorem nodup_byteDots (px py : Nat) (b : Byte) : (byteDots px py b).Nodup :=
  List.nodup_range.map fun c k e => by simpa using congrArg Dot.px e

/-- Lists that are numbered by a coordinate of their elements have no element twice. -/
theorem nodup_flatMap_range {n : Nat} {f : Nat → List Dot} (place : Dot → Nat) (each : ∀ k, (f k).Nodup)
    (placed : ∀ k, ∀ d ∈ f k, place d = k) : ((List.range n).flatMap f).Nodup := by
  refine List.nodup_flatMap.2 ⟨fun k _ => each k, List.nodup_range.imp fun {a b} ne d ha hb => ne ?_⟩
  rw [← placed a d ha, placed b d hb]

theorem nodup_spriteDots (s : State) (x y : RegField) (rows bpr : Nat) :
    (s.spriteDots x y rows bpr).Nodup := by
  refine nodup_flatMap_range (fun d => d.py - s.startY y) (fun r => ?_) fun r d hd => ?_
  · refine nodup_flatMap_range (fun d => (d.px - s.startX x) / 8) (fun k => nodup_byteDots _ _ _)
      fun k d hd => ?_
    obtain ⟨col, hcol, rfl⟩ := mem_byteDots.1 hd
    simp only
    omega
  · obtain ⟨k, -, hd⟩ := List.mem_flatMap.1 hd
    obtain ⟨col, -, rfl⟩ := mem_byteDots.1 hd
    simp only
    omega

theorem nodup_hlineDots (s : State) (x y : RegField) : (s.hlineDots x y).Nodup :=
  List.nodup_range.map fun a b e => by simpa using congrArg Dot.px e

theorem nodup_vlineDots (s : State) (x y : RegField) : (s.vlineDots x y).Nodup :=
  List.nodup_range.map fun a b e => by simpa using congrArg Dot.py e

/-- Settles O40: a call is known by its coordinates, which are different for each place of the loops. -/
theorem pixelCallsAreThoseOfTheRules : Obligations.PixelCallsAreThoseOfTheRules :=
  fun s x y rows bpr _ => ⟨mem_spriteDots, mem_hlineDots, mem_vlineDots, nodup_spriteDots s x y rows bpr,
    nodup_hlineDots s x y, nodup_vlineDots s x y, rfl, fun w h => s.pixelIndex_lt w h _ _⟩

end Sys2Proof.Machine
end

section
/-!
PROOF. The input, timer, index, font and random instructions (spec/45_input.md, R150 to R153;
spec/46_timers.md, R155 to R157; spec/47_index_font_bcd_bulk.md, R160 to R162; spec/48_random.md, R170 to R173).
-/

namespace Sys2Proof.Machine

variable {s : State} {i : Instr} {x : RegField}

/-- Settles O42: the key index is the value modulo 16. -/
theorem keySkipsTestTheKey : Obligations.KeySkipsTestTheKey := by
  intro s x k hk
  have key : keyIndex (s.v x) = k := Fin.ext hk.symm
  refine ⟨⟨_, rfl, ?_, s.skipIf_only _⟩, ⟨_, rfl, ?_, s.skipIf_only _⟩⟩
  · rw [key, State.skipIf_pc]
    rfl
  · rw [key, State.skipIf_pc]
    cases s.keyDown k <;> rfl

theorem exec_ldVxK_of_key {k : Fin Const.nkeys} (first : s.firstKey = some k) :
    exec (.ldVxK x) s = .next (s.setV x k.val) := by
  simp only [exec, execLdVxK, first]

theorem exec_ldVxK_of_no_key (none : s.firstKey = .none) :
    exec (.ldVxK x) s = .next (s.setPc (s.pc - 2)) := by
  simp only [exec, execLdVxK, none]
  rfl

/-- Settles O43: the scan answers the least key that is down, and a key number fits every register. -/
theorem keyWaitStoresLeastKeyOrRewinds : Obligations.KeyWaitStoresLeastKeyOrRewinds := by
  refine fun s x => ⟨fun k down least => ?_, fun up => ?_⟩
  · have fits : k.val < 2 ^ s.mode.regBits :=
      (k.isLt.trans (by decide : 16 < 256)).trans_le (byte_le_pow_regBits s.mode)
    exact completes_of_exec_setV_of_lt (exec_ldVxK_of_key (s.firstKey_some down least)) fits
  · exact ⟨_, exec_ldVxK_of_no_key (s.firstKey_none up), rfl, s.setPc_only _⟩

/-- Settles O44: a timer value is a byte, which fits every register. -/
theorem timerInstructionsMoveEightBits : Obligations.TimerInstructionsMoveEightBits :=
  fun s _ => ⟨completes_of_exec_setV_of_lt rfl (literal_fits s.mode s.dt),
    ⟨_, rfl, BitVec.toNat_ofNat _ _, (touches_setDt s _).parts⟩,
    ⟨_, rfl, BitVec.toNat_ofNat _ _, (touches_setSt s _).parts⟩⟩

/-! ## Index and font -/

theorem State.setIndex_only (s : State) (a : Addr) : KeepsAllBut [.index] s (s.setIndex a) :=
  (touches_setIndex s a).parts

theorem glyphAddress_of_digit (c : Config) {v : Nat} (digit : v ≤ 15) :
    (glyphAddress c v).toNat = 5 * v := by
  rw [glyphAddress, if_pos digit, BitVec.toNat_ofNat]
  simp only [Const.fontBase, Const.glyphBytes]
  omega

theorem glyphAddress_of_large (c : Config) {v : Nat} (large : 15 < v) :
    glyphAddress c v = c.fontPolicy.address v := if_neg (Nat.not_le.2 large)

/-- Settles O45: each is one write of `I`. -/
theorem indexInstructionsWriteOnlyTheIndex : Obligations.IndexInstructionsWriteOnlyTheIndex :=
  fun s x nnn => ⟨⟨_, rfl, addr12_toNat nnn, s.setIndex_only _⟩,
    ⟨_, rfl, BitVec.toNat_ofNat _ _, s.setIndex_only _⟩,
    ⟨_, rfl, glyphAddress_of_digit s.cfg, glyphAddress_of_large s.cfg,
      fun large policy => (glyphAddress_of_large s.cfg large).trans (by rw [policy]; rfl),
      s.setIndex_only _⟩⟩

/-! ## Random -/

/-- An instruction that draws one value and stores it narrowed. -/
theorem completes_of_exec_drawn {v : Nat} (run : exec i s = .next (s.drawn.setV x v))
    (fits : v < 2 ^ s.mode.regBits) : Completes i s fun t =>
      t.v x = v ∧ t.draws = s.draws + 1 ∧ KeepsAllBut [.regs, .draws] s t ∧
      KeepsRegsBut [fieldReg x] s t :=
  ⟨_, run, (s.drawn.v_setV_same x v).trans (Nat.mod_eq_of_lt fits), rfl,
    (touches_drawn_setV s x v).parts.mono (by decide), s.drawn.setReg_keeps _ _⟩

theorem exec_rndb_of_bound {y : RegField} (pos : 0 < s.v y) :
    exec (.rndb x y) s = .next (s.drawn.setV x (s.drawBelow (s.v y))) :=
  congrArg Host.Outcome.next (if_neg (by omega))

theorem exec_rndb_of_zero {y : RegField} (zero : s.v y = 0) : exec (.rndb x y) s = .next (s.setV x 0) :=
  congrArg Host.Outcome.next (if_pos zero)

/-- Settles O50: each draw is reduced below a bound that fits the register. -/
theorem randomInstructionsStayInRange : Obligations.RandomInstructionsStayInRange := by
  refine fun s x y kk => ⟨?_, ?_, fun pos => ?_, fun zero => ?_⟩
  · have bound : s.drawByte &&& kk.toNat ≤ kk.toNat := Nat.and_le_right
    refine (completes_of_exec_drawn rfl (bound.trans_lt (literal_fits s.mode kk))).imp
      fun t ⟨value, rest⟩ => ⟨value, ?_, rest⟩
    rw [value]
    exact bound
  · exact completes_of_exec_drawn rfl (Nat.mod_lt _ (Nat.two_pow_pos _))
  · have below : s.drawBelow (s.v y) < s.v y := Nat.mod_lt _ pos
    refine (completes_of_exec_drawn (exec_rndb_of_bound pos) (below.trans (s.v_lt y))).imp
      fun t ⟨value, rest⟩ => ⟨value, ?_, rest⟩
    rw [value]
    exact below
  · exact completes_of_exec_setV_of_lt (exec_rndb_of_zero zero) (Nat.two_pow_pos _)

end Sys2Proof.Machine
end

section
/-!
PROOF. Call with parameters and return with value (spec/49_call_with_parameters.md, R175 to R177).
-/

namespace Sys2Proof.Machine

variable {s t u w : State}

theorem exec_callp_of_free {nnn : BitVec 12} (free : s.sp ≤ 12) :
    exec (.callp nnn) s = .next (s.pushFrame.setPc (addr12 nnn)) :=
  congrArg Host.Outcome.next (if_pos (State.hasFree_iff.2 (by simp only [Const.frameSlots]; omega)))

theorem exec_callp_of_full {nnn : BitVec 12} (full : 12 < s.sp) :
    exec (.callp nnn) s = .next (s.raise (.stackOverflow (s.pc - 2))) :=
  congrArg Host.Outcome.next (if_neg fun free => by
    have := State.hasFree_iff.1 free
    simp only [Const.frameSlots] at this
    omega)

/-- The register values and the slots are 64 bits wide. -/
theorem State.toNat_ofNat_reg (s : State) (k : Fin Const.physRegs) :
    (BitVec.ofNat 64 (s.reg k)).toNat = s.reg k := toNat_ofNat_regBits s.mode _

/-- The slots of a frame (R177), and those below it. -/
theorem State.slot_pushFrame (s : State) (free : s.sp ≤ 12) (k : Nat) : s.pushFrame.slot k =
    if k = s.sp + 3 then BitVec.ofNat 64 (s.reg 3)
    else if k = s.sp + 2 then BitVec.ofNat 64 (s.reg 2)
    else if k = s.sp + 1 then BitVec.ofNat 64 (s.reg 1)
    else if k = s.sp then s.pc.setWidth 64
    else s.slot k := by
  have push (r : State) (v : Cell64) (room : r.sp < 16) (k : Nat) :
      (r.push v).slot k = if k = r.sp then v else r.slot k := by
    split
    · next e => rw [e, r.slot_push_same v room]
    · next e => exact r.slot_push_ne v e
  simp only [State.pushFrame, Const.aux1, Const.aux2, Const.aux3]
  rw [push _ _ (by simp only [State.push_sp]; omega), push _ _ (by simp only [State.push_sp]; omega),
    push _ _ (by simp only [State.push_sp]; omega), push _ _ (by omega)]
  rfl

theorem State.slot_pushFrame_pc (s : State) (free : s.sp ≤ 12) :
    s.pushFrame.slot s.sp = s.pc.setWidth 64 := by simp [s.slot_pushFrame free]

theorem State.slot_pushFrame_one (s : State) (free : s.sp ≤ 12) :
    (s.pushFrame.slot (s.sp + 1)).toNat = s.reg 1 := by
  simp [s.slot_pushFrame free, -BitVec.toNat_ofNat, s.toNat_ofNat_reg]

theorem State.slot_pushFrame_two (s : State) (free : s.sp ≤ 12) :
    (s.pushFrame.slot (s.sp + 2)).toNat = s.reg 2 := by
  simp [s.slot_pushFrame free, -BitVec.toNat_ofNat, s.toNat_ofNat_reg]

theorem State.slot_pushFrame_three (s : State) (free : s.sp ≤ 12) :
    (s.pushFrame.slot (s.sp + 3)).toNat = s.reg 3 := by
  simp [s.slot_pushFrame free, -BitVec.toNat_ofNat, s.toNat_ofNat_reg]

theorem State.slot_pushFrame_below (s : State) (free : s.sp ≤ 12) {k : Nat} (below : k < s.sp) :
    s.pushFrame.slot k = s.slot k := by
  rw [s.slot_pushFrame free, if_neg (by omega), if_neg (by omega), if_neg (by omega), if_neg (by omega)]

theorem callp_pushes_frame (nnn : BitVec 12) (free : s.sp ≤ 12) : Completes (.callp nnn) s fun t =>
    t.slot s.sp = s.pc.setWidth 64 ∧ (t.slot (s.sp + 1)).toNat = s.reg 1 ∧
      (t.slot (s.sp + 2)).toNat = s.reg 2 ∧ (t.slot (s.sp + 3)).toNat = s.reg 3 ∧
      t.sp = s.sp + 4 ∧ (∀ k, k < s.sp → t.slot k = s.slot k) ∧ t.pc.toNat = nnn.toNat ∧
      KeepsAllBut [.pc, .stack] s t := by
  refine ⟨_, exec_callp_of_free free, ?_⟩
  simp only [State.setPc_slot]
  exact ⟨s.slot_pushFrame_pc free, s.slot_pushFrame_one free, s.slot_pushFrame_two free,
    s.slot_pushFrame_three free, rfl, fun _ below => s.slot_pushFrame_below free below, addr12_toNat nnn,
    ((touches_pushFrame s).seq (touches_setPc _ _)).parts.mono (by decide)⟩

/-- Settles O51: the two clauses are the two branches of R175. -/
theorem callWithParametersPushesAFrameOrReports : Obligations.CallWithParametersPushesAFrameOrReports :=
  fun s nnn => ⟨callp_pushes_frame nnn, fun full => ⟨_, exec_callp_of_full full, s.raise_reports _⟩⟩

/-! ## Return -/

/-- The state after the pops and the result of `RETV` (R176). -/
def State.afterRetv (s : State) : State :=
  ((((s.popReg Const.aux3).popReg Const.aux2).popReg Const.aux1).popPc).setReg Const.result
    (s.reg Const.retval)

theorem exec_retv_of_occupied (occupied : 4 ≤ s.sp) : exec .retv s = .next s.afterRetv :=
  congrArg Host.Outcome.next (if_pos (State.hasOccupied_iff.2 occupied))

theorem exec_retv_of_few (few : s.sp < 4) : exec .retv s = .next (s.raise (.stackUnderflow (s.pc - 2))) :=
  congrArg Host.Outcome.next (if_neg fun occupied => by
    have := State.hasOccupied_iff.1 occupied
    simp only [Const.frameSlots] at this
    omega)

@[simp] theorem State.popReg_sp (s : State) (k : Fin Const.physRegs) : (s.popReg k).sp = s.sp - 1 := rfl

@[simp] theorem State.popReg_slot (s : State) (k : Fin Const.physRegs) (n : Nat) :
    (s.popReg k).slot n = s.slot n := rfl

theorem State.reg_popReg_same (s : State) (k : Fin Const.physRegs) :
    (s.popReg k).reg k = (s.slot (s.sp - 1)).toNat % 2 ^ s.mode.regBits := s.reg_setReg_same k _

theorem State.reg_popReg_ne (s : State) {j k : Fin Const.physRegs} (other : j ≠ k) :
    (s.popReg k).reg j = s.reg j := s.reg_setReg_ne other _

theorem State.reg_popPc (s : State) (k : Fin Const.physRegs) : s.popPc.reg k = s.reg k := rfl

theorem reg_zero_afterRetv (s : State) : s.afterRetv.reg 0 = s.reg 1 :=
  (State.reg_setReg_same _ Const.result _).trans (Nat.mod_eq_of_lt (s.reg_lt 1))

theorem reg_one_afterRetv (s : State) :
    s.afterRetv.reg 1 = (s.slot (s.sp - 3)).toNat % 2 ^ s.mode.regBits := by
  rw [State.afterRetv, State.reg_setReg_ne _ (by decide), State.reg_popPc, State.reg_popReg_same]
  simp only [State.popReg_slot, State.popReg_sp, State.popReg_mode, Nat.sub_sub]

theorem reg_two_afterRetv (s : State) :
    s.afterRetv.reg 2 = (s.slot (s.sp - 2)).toNat % 2 ^ s.mode.regBits := by
  rw [State.afterRetv, State.reg_setReg_ne _ (by decide), State.reg_popPc, State.reg_popReg_ne _ (by decide),
    State.reg_popReg_same]
  simp only [State.popReg_slot, State.popReg_sp, State.popReg_mode, Nat.sub_sub]

theorem reg_three_afterRetv (s : State) :
    s.afterRetv.reg 3 = (s.slot (s.sp - 1)).toNat % 2 ^ s.mode.regBits := by
  rw [State.afterRetv, State.reg_setReg_ne _ (by decide), State.reg_popPc, State.reg_popReg_ne _ (by decide),
    State.reg_popReg_ne _ (by decide), State.reg_popReg_same]

theorem pc_afterRetv (s : State) : s.afterRetv.pc = (s.slot (s.sp - 4)).setWidth 16 := rfl

theorem sp_afterRetv (s : State) : s.afterRetv.sp = s.sp - 4 := rfl

theorem touches_afterRetv (s : State) : Touches [.regs, .pc, .stack] [0, 1, 2, 3] s s.afterRetv :=
  (((((touches_popReg s _).seq (touches_popReg _ _)).seq (touches_popReg _ _)).seq (touches_popPc _)).seq
    (touches_setReg _ _ _)).mono (by decide) (by decide)

theorem Touches.keepsRegsBut {ps : List Part} {rs : List (Fin Const.physRegs)} (h : Touches ps rs s t) :
    KeepsRegsBut rs s t := fun j other => (h.regs j).resolve_right fun ⟨written, _⟩ => other written

/-- Settles O52: the two clauses are the two branches of R176. -/
theorem returnWithValueRestoresTheFrameOrReports : Obligations.ReturnWithValueRestoresTheFrameOrReports :=
  fun s => ⟨fun occupied => ⟨_, exec_retv_of_occupied occupied, reg_zero_afterRetv s, reg_one_afterRetv s,
      reg_two_afterRetv s, reg_three_afterRetv s, (congrArg BitVec.toNat (pc_afterRetv s)).trans
        (BitVec.toNat_setWidth _ _), sp_afterRetv s, rfl, (touches_afterRetv s).parts,
      (touches_afterRetv s).keepsRegsBut⟩,
    fun few => ⟨_, exec_retv_of_few few, s.raise_reports _⟩⟩

/-- Settles O53: the slots that the return reads are those that the call wrote. -/
theorem callThenReturnWithValueKeepsTheConvention :
    Obligations.CallThenReturnWithValueKeepsTheConvention := by
  intro s t u w nnn free called stack sp mode returned
  rw [exec_callp_of_free free] at called
  cases called
  have depth : u.sp = s.sp + 4 := sp
  have slot (k : Nat) : u.slot k = s.pushFrame.slot k := State.slot_congr stack k
  rw [exec_retv_of_occupied (by omega)] at returned
  cases returned
  have saved (k : Fin Const.physRegs) : s.reg k % 2 ^ u.mode.regBits = s.reg k := by
    rw [mode, Nat.mod_eq_of_lt (s.reg_lt k)]
  refine ⟨reg_zero_afterRetv u, ?_, ?_, ?_, ?_, ?_⟩
  · rw [reg_one_afterRetv, slot, depth, show s.sp + 4 - 3 = s.sp + 1 by omega, s.slot_pushFrame_one free,
      saved]
  · rw [reg_two_afterRetv, slot, depth, show s.sp + 4 - 2 = s.sp + 2 by omega, s.slot_pushFrame_two free,
      saved]
  · rw [reg_three_afterRetv, slot, depth, show s.sp + 4 - 1 = s.sp + 3 by omega, s.slot_pushFrame_three free,
      saved]
  · rw [pc_afterRetv, slot, depth, Nat.add_sub_cancel, s.slot_pushFrame_pc free]
    exact (BitVec.setWidth_setWidth_of_le _ (by decide)).trans (BitVec.setWidth_eq _)
  · rw [sp_afterRetv, depth, Nat.add_sub_cancel]

end Sys2Proof.Machine
end

section
/-!
PROOF. The other operations of the surrounding software (spec/60_exceptions.md, R196, R198, R199;
spec/70_reset_and_hazards.md, R210, R215; spec/10_state.md, R44).
-/

namespace Sys2Proof.Machine

variable {s : State}

/-! ## Graphics -/

theorem copyToEffect_on (s : State) (j : Nat) :
    s.copyToEffect.eb.on j = if j < s.dw * s.dh then s.fb.on j else s.eb.on j := by
  have count : s.pixelCount = s.dw * s.dh := rfl
  by_cases h : j < s.dw * s.dh
  · simp [State.copyToEffect, Pixels.on, Pixels.inside, Pixels.outside, count, h]
  · simp [State.copyToEffect, Pixels.on, Pixels.inside, Pixels.outside, count, h, Nat.not_lt.1 h]

theorem State.cycleFrame_eb (s : State) : s.cycleFrame.eb = s.eb := by
  unfold State.cycleFrame
  split <;> rfl

theorem State.setCycle_only (s : State) (f p : Nat) : KeepsAllBut [.cycle] s (s.setCycle f p) := by
  intro q hq
  cases q <;> simp [Part.same, State.readByte] at hq ⊢

theorem State.cycleFrame_only (s : State) : KeepsAllBut [.cycle] s s.cycleFrame := by
  unfold State.cycleFrame
  split
  · exact s.setCycle_only _ _
  · exact s.setCycle_only _ _

theorem State.copyToEffect_only (s : State) : KeepsAllBut [.eb] s s.copyToEffect := by
  intro q hq
  cases q <;> simp [Part.same, State.readByte, State.copyToEffect] at hq ⊢

theorem processGraphicsEffect_of_none (none : s.effect = .none) :
    s.processGraphicsEffect = s.copyToEffect := by
  simp only [State.processGraphicsEffect, none]

theorem processGraphicsEffect_of_cycle (cycle : s.effect = .colorCycle) :
    s.processGraphicsEffect = s.copyToEffect.cycleFrame := by
  simp only [State.processGraphicsEffect, cycle]

theorem processGraphicsEffect_on (s : State) (j : Nat) :
    s.processGraphicsEffect.eb.on j = if j < s.dw * s.dh then s.fb.on j else s.eb.on j := by
  cases effect : s.effect
  · rw [processGraphicsEffect_of_none effect, copyToEffect_on]
  · rw [processGraphicsEffect_of_cycle effect, State.cycleFrame_eb, copyToEffect_on]

theorem processGraphicsEffect_only (s : State) : KeepsAllBut [.eb, .cycle] s s.processGraphicsEffect := by
  have copied : KeepsAllBut [.eb, .cycle] s s.copyToEffect := s.copyToEffect_only.mono (by simp)
  cases effect : s.effect
  · rw [processGraphicsEffect_of_none effect]
    exact copied
  · rw [processGraphicsEffect_of_cycle effect]
    exact copied.trans (s.copyToEffect.cycleFrame_only.mono (by simp))

theorem cycleFrame_before_tenth (early : s.effectFrames ≠ 9) :
    s.cycleFrame = s.setCycle (s.effectFrames + 1) s.paletteIndex :=
  if_neg fun tenth => early (Nat.succ.inj tenth)

theorem cycleFrame_tenth (tenth : s.effectFrames = 9) :
    s.cycleFrame = s.setCycle 0 ((s.paletteIndex + 1) % s.cfg.paletteSize) :=
  if_pos (congrArg Nat.succ tenth)

/-- Settles O55: the window is copied in both effects, and the colour cycle counts to ten. -/
theorem graphicsOperationsLeaveTheFramebuffer : Obligations.GraphicsOperationsLeaveTheFramebuffer := by
  refine fun s e => ⟨⟨_, rfl, rfl, (touches_setRedraw s false).parts⟩, ⟨_, rfl, rfl, fun q hq => ?_⟩,
    ⟨_, rfl, processGraphicsEffect_on s, fun none => ?_, fun cycle early => ?_, fun cycle tenth => ?_,
      processGraphicsEffect_only s⟩⟩
  · cases q <;> simp [Part.same, State.readByte, State.setEffect] at hq ⊢
  · rw [processGraphicsEffect_of_none none]
    exact s.copyToEffect_only
  · rw [processGraphicsEffect_of_cycle cycle, cycleFrame_before_tenth (s := s.copyToEffect) early]
    exact ⟨rfl, rfl⟩
  · rw [processGraphicsEffect_of_cycle cycle, cycleFrame_tenth (s := s.copyToEffect) tenth]
    exact ⟨rfl, rfl⟩

/-! ## Modes and reset -/

theorem maskRegs_toNat (m : Mode) (r : Vector Cell64 Const.physRegs) (k : Fin Const.physRegs) :
    ((maskRegs m r)[k.val]'k.isLt).toNat = (r[k.val]'k.isLt).toNat % 2 ^ m.regBits := by
  rw [maskRegs, Vector.getElem_map, toNat_ofNat_regBits]

theorem setMode_of_ne {m : Mode} (other : m ≠ s.mode) : s.setMode m =
    ((((s.putMode m).setRegs (maskRegs m s.regs)).setFb []).setEb []).setRedraw true := if_neg other

/-- Settles O57: the current mode is kept as it is, another one is five writes. -/
theorem setModeMasksRegistersAndClearsTheDisplay : Obligations.SetModeMasksRegistersAndClearsTheDisplay := by
  refine fun s m => ⟨_, rfl, fun same => if_pos same, fun other => ?_⟩
  rw [setMode_of_ne other]
  refine ⟨rfl, maskRegs_toNat m s.regs, fun _ => rfl, fun _ => rfl, rfl, fun q hq => ?_⟩
  cases q <;> simp [Part.same, State.readByte] at hq ⊢

/-- Settles O58: each element of the state after reset, read off. -/
theorem resetGivesEveryElementItsValue : Obligations.ResetGivesEveryElementItsValue := by
  refine fun s => ⟨_, rfl, rfl, rfl, rfl, rfl, rfl, rfl, fun _ => rfl, fun k => ?_, fun k => ?_,
    fun _ => rfl, fun _ => rfl, rfl, fun k => ?_, rfl, rfl, rfl, rfl, rfl, rfl, rfl⟩
  · exact Vector.getElem_replicate k.isLt
  · show (Vector.replicate Const.stackDepth (0 : Cell64))[k]?.getD 0 = 0
    rw [Vector.getElem?_replicate]
    split <;> rfl
  · exact Vector.getElem_replicate k.isLt

end Sys2Proof.Machine
end
